-- ==== Sys2Proof/Word.lean ====
section
/-! DEFINITION. The word types of CORE, with the widths that 00_scope.md R9 fixes. -/

namespace Sys2Proof

/-- A host register, a decoded word, a write operand or a counter: 64 bits (R9). -/
abbrev Word := BitVec 64

/-- A time stamp or a decoder threshold: 64-bit unsigned microseconds (R9). -/
abbrev Micros := BitVec 64

/-- A debounce hold time: 32-bit unsigned milliseconds (R9). -/
abbrev Millis := BitVec 32

/-- A bit count: 7 bits holding 0 to 64 (R9). -/
abbrev BitCount := BitVec 7

/-- The 32-bit descriptor that names a step (30_encoding.md R301). -/
abbrev Descriptor := BitVec 32

/-- The name of a physical line. The spec names no line: any number may stand for one (R8). -/
abbrev LineId := Nat

end Sys2Proof
end

