-- ==== Sys2Proof/Config.lean ====
section
/-! DEFINITION. The implementation parameters of CORE (00_scope.md R8): the fixed ones as constants, the `OPEN` ones as the
fields of `Config`, plain data that a state carries and no step changes. -/

namespace Sys2Proof

/-- N_W: two Wiegand instances, `w1` and `w2` (R8). -/
abbrev nW : Nat := 2

/-- N_CD: two clock-data instances, `cd1` and `cd2` (R8). -/
abbrev nCd : Nat := 2

/-- The largest N_DI, 64: INST has six bits (R8, 20_memory.md R201). -/
abbrev maxDi : Nat := 64

/-- The index of a Wiegand instance: `w<n>` is index n − 1 (30_encoding.md R315). -/
abbrev WIdx := Fin nW

/-- The index of a clock-data instance. -/
abbrev CdIdx := Fin nCd

/-- The index of a debounce filter, as INST can hold it; it exists when it is below N_DI. -/
abbrev DiIdx := Fin maxDi

/-- The two physical lines of one decoder instance in LINE_MAP (R8): D0 and D1 of a Wiegand instance, clock and data of a
clock-data instance. -/
structure LinePair where
  first : LineId
  second : LineId
  deriving DecidableEq, Repr

/-- The `OPEN` parameters (R8). -/
structure Config where
  /-- N_DI, the number of debounce filters. -/
  nDi : Nat
  /-- W_D0(0), W_D1(0). -/
  w1Lines : LinePair
  /-- W_D0(1), W_D1(1). -/
  w2Lines : LinePair
  /-- CD_CLK(0), CD_DATA(0). -/
  cd1Lines : LinePair
  /-- CD_CLK(1), CD_DATA(1). -/
  cd2Lines : LinePair
  /-- T_RESET, the value of `now` at the first step after reset. -/
  tReset : Micros
  wItvlMinRst : Micros
  wItvlMaxRst : Micros
  wWidthMinRst : Micros
  wWidthMaxRst : Micros
  cdPeriodMinRst : Micros
  cdPeriodMaxRst : Micros
  debOnMsRst : Millis
  debOffMsRst : Millis
  deriving DecidableEq, Repr

/-- The example configuration of 95_test_vectors.md, section Conventions. DESIGN CHOICE (log 1), unsafe: the spec leaves
every one of these values `OPEN`; only `State.reset` and tests use this one. -/
def Config.vectors : Config where
  nDi := 2
  w1Lines := ⟨0, 1⟩
  w2Lines := ⟨2, 3⟩
  cd1Lines := ⟨0, 1⟩
  cd2Lines := ⟨2, 3⟩
  tReset := 0
  wItvlMinRst := 1200
  wItvlMaxRst := 2700
  wWidthMinRst := 10
  wWidthMaxRst := 150
  cdPeriodMinRst := 400
  cdPeriodMaxRst := 1600
  debOnMsRst := 50
  debOffMsRst := 50

end Sys2Proof
end

