-- ==== Sys2Proof/Syntax.lean ====
section
/-! DEFINITION. The operations of CORE: one constructor per row of 30_encoding.md R310, in the table's order. The write operand
WDATA, `now` and EXT_CLAIMED are operands outside the descriptor (R307, R309) and stand in the state. -/

namespace Sys2Proof

/-- One step of CORE, as its descriptor names it (R310). `n`, `j` and `k` are INST of a Wiegand, clock-data and debounce
instance; a Boolean is the sampled LEVEL or DATA, `true` for electrical high (R305). -/
inductive Instr where
  /-- 1 `WR w<n>.ENABLED, v` -/
  | wrWEnabled (n : WIdx)
  /-- 2 `RD w<n>.ENABLED` -/
  | rdWEnabled (n : WIdx)
  /-- 3 `RD w<n>.DATA_TS` -/
  | rdWDataTs (n : WIdx)
  /-- 4 `RD w<n>.DATA_BITS` -/
  | rdWDataBits (n : WIdx)
  /-- 5 `RD w<n>.DATA_WORD` -/
  | rdWDataWord (n : WIdx)
  /-- 6 `RD w<n>.NOISE` -/
  | rdWNoise (n : WIdx)
  /-- 7 `RD w<n>.PULSE_ITVL_MIN` -/
  | rdWItvlMin (n : WIdx)
  /-- 8 `WR w<n>.PULSE_ITVL_MIN, v` -/
  | wrWItvlMin (n : WIdx)
  /-- 9 `RD w<n>.PULSE_ITVL_MAX` -/
  | rdWItvlMax (n : WIdx)
  /-- 10 `WR w<n>.PULSE_ITVL_MAX, v` -/
  | wrWItvlMax (n : WIdx)
  /-- 11 `RD w<n>.PULSE_WIDTH_MIN` -/
  | rdWWidthMin (n : WIdx)
  /-- 12 `WR w<n>.PULSE_WIDTH_MIN, v` -/
  | wrWWidthMin (n : WIdx)
  /-- 13 `RD w<n>.PULSE_WIDTH_MAX` -/
  | rdWWidthMax (n : WIdx)
  /-- 14 `WR w<n>.PULSE_WIDTH_MAX, v` -/
  | wrWWidthMax (n : WIdx)
  /-- 15 `EV w<n>.D0 l` -/
  | evWD0 (n : WIdx) (level : Bool)
  /-- 16 `EV w<n>.D1 l` -/
  | evWD1 (n : WIdx) (level : Bool)
  /-- 17 `WR cd<n>.ENABLED, v` -/
  | wrCdEnabled (j : CdIdx)
  /-- 18 `RD cd<n>.ENABLED` -/
  | rdCdEnabled (j : CdIdx)
  /-- 19 `RD cd<n>.DATA_TS` -/
  | rdCdDataTs (j : CdIdx)
  /-- 20 `RD cd<n>.DATA_BITS` -/
  | rdCdDataBits (j : CdIdx)
  /-- 21 `RD cd<n>.DATA_WORD` -/
  | rdCdDataWord (j : CdIdx)
  /-- 22 `RD cd<n>.NOISE` -/
  | rdCdNoise (j : CdIdx)
  /-- 23 `RD cd<n>.CLOCK_PERIOD_MIN` -/
  | rdCdPeriodMin (j : CdIdx)
  /-- 24 `WR cd<n>.CLOCK_PERIOD_MIN, v` -/
  | wrCdPeriodMin (j : CdIdx)
  /-- 25 `RD cd<n>.CLOCK_PERIOD_MAX` -/
  | rdCdPeriodMax (j : CdIdx)
  /-- 26 `WR cd<n>.CLOCK_PERIOD_MAX, v` -/
  | wrCdPeriodMax (j : CdIdx)
  /-- 27 `EV cd<n>.CLK data=d` -/
  | evCdClk (j : CdIdx) (data : Bool)
  /-- 28 `RD di<n>.DEB` -/
  | rdDiDeb (k : DiIdx)
  /-- 29 `RD di<n>.DEB_ON_MS` -/
  | rdDiOnMs (k : DiIdx)
  /-- 30 `WR di<n>.DEB_ON_MS, v` -/
  | wrDiOnMs (k : DiIdx)
  /-- 31 `RD di<n>.DEB_OFF_MS` -/
  | rdDiOffMs (k : DiIdx)
  /-- 32 `WR di<n>.DEB_OFF_MS, v` -/
  | wrDiOffMs (k : DiIdx)
  /-- 33 `RD di<n>.DEB_ON_CNT` -/
  | rdDiOnCnt (k : DiIdx)
  /-- 34 `RD di<n>.DEB_OFF_CNT` -/
  | rdDiOffCnt (k : DiIdx)
  /-- 35 `EV di<n>.IN l` -/
  | evDiIn (k : DiIdx) (level : Bool)
  /-- 36 `SYS di<n>.EXPIRE r` -/
  | sysExpire (k : DiIdx) (level : Bool)
  /-- 37 `SYS RESET` -/
  | sysReset
  deriving DecidableEq, Repr

end Sys2Proof
end

