-- ==== Sys2Proof/WellFormed.lean ====
section
/-! DEFINITION. Well-formed operations and configurations. A Wiegand or clock-data index is in range by its type; a filter index
must be below N_DI (30_encoding.md R310), and the `OPEN` parameters have the ranges of 93_implementation_defined.md. -/

namespace Sys2Proof

/-- An operation exists when its INST is below the unit's instance count (R310). -/
def Instr.wf (nDi : Nat) : Instr → Bool
  | .wrWEnabled _ | .rdWEnabled _ | .rdWDataTs _ | .rdWDataBits _ | .rdWDataWord _ | .rdWNoise _ => true
  | .rdWItvlMin _ | .wrWItvlMin _ | .rdWItvlMax _ | .wrWItvlMax _ => true
  | .rdWWidthMin _ | .wrWWidthMin _ | .rdWWidthMax _ | .wrWWidthMax _ => true
  | .evWD0 _ _ | .evWD1 _ _ => true
  | .wrCdEnabled _ | .rdCdEnabled _ | .rdCdDataTs _ | .rdCdDataBits _ | .rdCdDataWord _ | .rdCdNoise _ => true
  | .rdCdPeriodMin _ | .wrCdPeriodMin _ | .rdCdPeriodMax _ | .wrCdPeriodMax _ => true
  | .evCdClk _ _ => true
  | .rdDiDeb k | .rdDiOnMs k | .wrDiOnMs k | .rdDiOffMs k | .wrDiOffMs k | .rdDiOnCnt k | .rdDiOffCnt k =>
    decide (k.val < nDi)
  | .evDiIn k _ | .sysExpire k _ => decide (k.val < nDi)
  | .sysReset => true

/-- The two lines of one instance are distinct (R8). -/
def LinePair.wf (p : LinePair) : Bool := p.first != p.second

/-- The premise of R814 at one time, `now` + 2^42 < 2^64, written as a bound on `now`. -/
def timeFits (t : Micros) : Bool := decide (t.toNat < 2 ^ 64 - 2 ^ 42)

/-- The ranges of the `OPEN` parameters (93_implementation_defined.md). -/
def Config.wf (c : Config) : Bool :=
  decide (1 ≤ c.nDi) && decide (c.nDi ≤ maxDi) && c.w1Lines.wf && c.w2Lines.wf && c.cd1Lines.wf && c.cd2Lines.wf
    && timeFits c.tReset

end Sys2Proof
end

