-- ==== Sys2Proof/Decode.lean ====
section
/-! DEFINITION. The decoder from a 32-bit descriptor to an operation, total, with its two named rejections (30_encoding.md R301
to R314), and the encoder, written from the same table (R310). -/

namespace Sys2Proof

/-- Why a descriptor is no operation. -/
inductive DecodeReject where
  /-- A host access that names no register, or writes a read-only one: it is answered DECERR (R312). -/
  | decErr
  /-- An EVT or SYS outside the rows: it is refused (R313). -/
  | noSuchOperation
  deriving DecidableEq, Repr

/-- KIND, descriptor[31:30] (R301, R302). -/
def kindOf (d : Descriptor) : BitVec 2 := d.extractLsb' 30 2

/-- The reserved bits, descriptor[29:12] (R303). -/
def reservedOf (d : Descriptor) : BitVec 18 := d.extractLsb' 12 18

/-- UNIT, descriptor[11:10] (R301). -/
def unitOf (d : Descriptor) : BitVec 2 := d.extractLsb' 10 2

/-- INST, descriptor[9:4] (R301). -/
def instOf (d : Descriptor) : BitVec 6 := d.extractLsb' 4 6

/-- descriptor[3:0]: REG, or {PORT, DATA, LEVEL}, or SYSOP (R301). -/
def lowOf (d : Descriptor) : BitVec 4 := d.extractLsb' 0 4

/-- INST as the index of a Wiegand or clock-data instance, if it is below N_W = N_CD = 2. -/
def pairIdx (inst : BitVec 6) : Option (Fin 2) :=
  if h : inst.toNat < 2 then some ⟨inst.toNat, h⟩ else none

/-- INST as the index of a filter, if it is below N_DI. -/
def filterIdx (nDi : Nat) (inst : BitVec 6) : Option DiIdx :=
  if inst.toNat < nDi then some inst.toFin else none

/-- The Wiegand registers a host read can name (10_state.md R120). -/
def readWiegand (n : WIdx) (reg : BitVec 4) : Option Instr :=
  match reg.toNat with
  | 0x0 => some (.rdWEnabled n)
  | 0x1 => some (.rdWDataTs n)
  | 0x2 => some (.rdWDataBits n)
  | 0x3 => some (.rdWDataWord n)
  | 0x4 => some (.rdWNoise n)
  | 0x5 => some (.rdWItvlMin n)
  | 0x6 => some (.rdWItvlMax n)
  | 0x7 => some (.rdWWidthMin n)
  | 0x8 => some (.rdWWidthMax n)
  | _ => none

/-- The Wiegand registers a host write can name (10_state.md R120). -/
def writeWiegand (n : WIdx) (reg : BitVec 4) : Option Instr :=
  match reg.toNat with
  | 0x0 => some (.wrWEnabled n)
  | 0x5 => some (.wrWItvlMin n)
  | 0x6 => some (.wrWItvlMax n)
  | 0x7 => some (.wrWWidthMin n)
  | 0x8 => some (.wrWWidthMax n)
  | _ => none

/-- The clock-data registers a host read can name (10_state.md R121). -/
def readClockData (j : CdIdx) (reg : BitVec 4) : Option Instr :=
  match reg.toNat with
  | 0x0 => some (.rdCdEnabled j)
  | 0x1 => some (.rdCdDataTs j)
  | 0x2 => some (.rdCdDataBits j)
  | 0x3 => some (.rdCdDataWord j)
  | 0x4 => some (.rdCdNoise j)
  | 0x5 => some (.rdCdPeriodMin j)
  | 0x6 => some (.rdCdPeriodMax j)
  | _ => none

/-- The clock-data registers a host write can name (10_state.md R121). -/
def writeClockData (j : CdIdx) (reg : BitVec 4) : Option Instr :=
  match reg.toNat with
  | 0x0 => some (.wrCdEnabled j)
  | 0x5 => some (.wrCdPeriodMin j)
  | 0x6 => some (.wrCdPeriodMax j)
  | _ => none

/-- The debounce registers a host read can name (10_state.md R122). -/
def readDebounce (k : DiIdx) (reg : BitVec 4) : Option Instr :=
  match reg.toNat with
  | 0x0 => some (.rdDiDeb k)
  | 0x1 => some (.rdDiOnMs k)
  | 0x2 => some (.rdDiOffMs k)
  | 0x3 => some (.rdDiOnCnt k)
  | 0x4 => some (.rdDiOffCnt k)
  | _ => none

/-- The debounce registers a host write can name (10_state.md R122). -/
def writeDebounce (k : DiIdx) (reg : BitVec 4) : Option Instr :=
  match reg.toNat with
  | 0x1 => some (.wrDiOnMs k)
  | 0x2 => some (.wrDiOffMs k)
  | _ => none

/-- A host read: the register that {UNIT, INST, REG} names (R304, 20_memory.md R201). -/
def decodeRead (nDi : Nat) (unit : BitVec 2) (inst : BitVec 6) (reg : BitVec 4) : Option Instr :=
  match unit.toNat with
  | 0 => (pairIdx inst).bind fun n => readWiegand n reg
  | 1 => (pairIdx inst).bind fun j => readClockData j reg
  | 2 => (filterIdx nDi inst).bind fun k => readDebounce k reg
  | _ => none

/-- A host write: the writable register that {UNIT, INST, REG} names (R304). -/
def decodeWrite (nDi : Nat) (unit : BitVec 2) (inst : BitVec 6) (reg : BitVec 4) : Option Instr :=
  match unit.toNat with
  | 0 => (pairIdx inst).bind fun n => writeWiegand n reg
  | 1 => (pairIdx inst).bind fun j => writeClockData j reg
  | 2 => (filterIdx nDi inst).bind fun k => writeDebounce k reg
  | _ => none

/-- A line event: the legal {UNIT, PORT, DATA, LEVEL} of R305. -/
def decodeEvent (nDi : Nat) (unit : BitVec 2) (inst : BitVec 6) (low : BitVec 4) : Option Instr :=
  match unit.toNat, low.toNat with
  | 0, 0b0000 => (pairIdx inst).map fun n => .evWD0 n false
  | 0, 0b0001 => (pairIdx inst).map fun n => .evWD0 n true
  | 0, 0b0100 => (pairIdx inst).map fun n => .evWD1 n false
  | 0, 0b0101 => (pairIdx inst).map fun n => .evWD1 n true
  | 1, 0b0000 => (pairIdx inst).map fun j => .evCdClk j false
  | 1, 0b0010 => (pairIdx inst).map fun j => .evCdClk j true
  | 2, 0b0000 => (filterIdx nDi inst).map fun k => .evDiIn k false
  | 2, 0b0001 => (filterIdx nDi inst).map fun k => .evDiIn k true
  | _, _ => none

/-- A system step: EXPIRE of a filter or RESET (R306). -/
def decodeSystem (nDi : Nat) (unit : BitVec 2) (inst : BitVec 6) (low : BitVec 4) : Option Instr :=
  match unit.toNat, low.toNat with
  | 2, 0b0000 => (filterIdx nDi inst).map fun k => .sysExpire k false
  | 2, 0b0001 => (filterIdx nDi inst).map fun k => .sysExpire k true
  | 3, 0b1111 => if inst = 0 then some .sysReset else none
  | _, _ => none

/-- The operation of a descriptor whose reserved bits are 0, by its KIND (R302). -/
def decodeFields (nDi : Nat) (d : Descriptor) : Option Instr :=
  match (kindOf d).toNat with
  | 0 => decodeRead nDi (unitOf d) (instOf d) (lowOf d)
  | 1 => decodeWrite nDi (unitOf d) (instOf d) (lowOf d)
  | 2 => decodeEvent nDi (unitOf d) (instOf d) (lowOf d)
  | _ => decodeSystem nDi (unitOf d) (instOf d) (lowOf d)

/-- A host access, HRD or HWR: KIND 0 or 1 (R300, R301). -/
def isHostAccess (d : Descriptor) : Bool := (kindOf d).toNat < 2

/-- How a descriptor that matches no row is rejected: DECERR for a host access (R312), refused for an EVT or SYS (R313). -/
def rejectOf (d : Descriptor) : DecodeReject :=
  if isHostAccess d then .decErr else .noSuchOperation

/-- The decoder: total on every descriptor (R301 to R313). `nDi` is the parameter N_DI. -/
def decode (nDi : Nat) (d : Descriptor) : Except DecodeReject Instr :=
  match (if reservedOf d = 0 then decodeFields nDi d else none) with
  | some i => .ok i
  | none => .error (rejectOf d)

/-- The filter that a step is a line event of, or whose registers it accesses (43_debounce.md R602 (c)). DEDUCED (log 8): a write
to a read-only register of a filter counts as an access to the filter's registers; an offset that names no register does not. -/
def touchedFilter (d : Descriptor) : Option DiIdx :=
  if reservedOf d = 0 ∧ (unitOf d).toNat = 2 then
    match (kindOf d).toNat with
    | 0 | 1 => if (lowOf d).toNat ≤ 4 then some (instOf d).toFin else none
    | 2 => if (lowOf d).toNat ≤ 1 then some (instOf d).toFin else none
    | _ => none
  else none

/-- A descriptor from its fields: {KIND, 0, UNIT, INST, low} (R301). -/
def descriptor (kind unit : BitVec 2) (inst : BitVec 6) (low : BitVec 4) : Descriptor :=
  kind ++ 0#18 ++ unit ++ inst ++ low

/-- A host read descriptor: KIND 0. -/
def hrd (unit : BitVec 2) (inst : Nat) (reg : BitVec 4) : Descriptor := descriptor 0 unit (BitVec.ofNat 6 inst) reg

/-- A host write descriptor: KIND 1. -/
def hwr (unit : BitVec 2) (inst : Nat) (reg : BitVec 4) : Descriptor := descriptor 1 unit (BitVec.ofNat 6 inst) reg

/-- A line event descriptor: KIND 2, with PORT, DATA and LEVEL (R305). -/
def evt (unit : BitVec 2) (inst : Nat) (port : BitVec 2) (data level : Bool) : Descriptor :=
  descriptor 2 unit (BitVec.ofNat 6 inst) (port ++ BitVec.ofBool data ++ BitVec.ofBool level)

/-- The encoder: the one descriptor of an operation (R310). -/
def encode : Instr → Descriptor
  | .wrWEnabled n => hwr 0 n 0x0
  | .rdWEnabled n => hrd 0 n 0x0
  | .rdWDataTs n => hrd 0 n 0x1
  | .rdWDataBits n => hrd 0 n 0x2
  | .rdWDataWord n => hrd 0 n 0x3
  | .rdWNoise n => hrd 0 n 0x4
  | .rdWItvlMin n => hrd 0 n 0x5
  | .wrWItvlMin n => hwr 0 n 0x5
  | .rdWItvlMax n => hrd 0 n 0x6
  | .wrWItvlMax n => hwr 0 n 0x6
  | .rdWWidthMin n => hrd 0 n 0x7
  | .wrWWidthMin n => hwr 0 n 0x7
  | .rdWWidthMax n => hrd 0 n 0x8
  | .wrWWidthMax n => hwr 0 n 0x8
  | .evWD0 n l => evt 0 n 0 false l
  | .evWD1 n l => evt 0 n 1 false l
  | .wrCdEnabled j => hwr 1 j 0x0
  | .rdCdEnabled j => hrd 1 j 0x0
  | .rdCdDataTs j => hrd 1 j 0x1
  | .rdCdDataBits j => hrd 1 j 0x2
  | .rdCdDataWord j => hrd 1 j 0x3
  | .rdCdNoise j => hrd 1 j 0x4
  | .rdCdPeriodMin j => hrd 1 j 0x5
  | .wrCdPeriodMin j => hwr 1 j 0x5
  | .rdCdPeriodMax j => hrd 1 j 0x6
  | .wrCdPeriodMax j => hwr 1 j 0x6
  | .evCdClk j d => evt 1 j 0 d false
  | .rdDiDeb k => hrd 2 k 0x0
  | .rdDiOnMs k => hrd 2 k 0x1
  | .wrDiOnMs k => hwr 2 k 0x1
  | .rdDiOffMs k => hrd 2 k 0x2
  | .wrDiOffMs k => hwr 2 k 0x2
  | .rdDiOnCnt k => hrd 2 k 0x3
  | .rdDiOffCnt k => hrd 2 k 0x4
  | .evDiIn k l => evt 2 k 0 false l
  | .sysExpire k l => descriptor 3 2 (BitVec.ofNat 6 k) (0#3 ++ BitVec.ofBool l)
  | .sysReset => descriptor 3 3 0 0xF

/-- A row of the opcode map: the fixed bits and which bits they are (R310). -/
structure OpcodeRow where
  pattern : Descriptor
  mask : Descriptor
  deriving DecidableEq, Repr

/-- The 37 rows of R310, in order. The decoder does not read them: that it accepts exactly what they describe is a claim. -/
def opcodeRows : List OpcodeRow := [
    ⟨0x40000000, 0xFFFFFC0F⟩, ⟨0x00000000, 0xFFFFFC0F⟩, ⟨0x00000001, 0xFFFFFC0F⟩, ⟨0x00000002, 0xFFFFFC0F⟩, ⟨0x00000003, 0xFFFFFC0F⟩, ⟨0x00000004, 0xFFFFFC0F⟩,
    ⟨0x00000005, 0xFFFFFC0F⟩, ⟨0x40000005, 0xFFFFFC0F⟩, ⟨0x00000006, 0xFFFFFC0F⟩, ⟨0x40000006, 0xFFFFFC0F⟩, ⟨0x00000007, 0xFFFFFC0F⟩, ⟨0x40000007, 0xFFFFFC0F⟩,
    ⟨0x00000008, 0xFFFFFC0F⟩, ⟨0x40000008, 0xFFFFFC0F⟩, ⟨0x80000000, 0xFFFFFC0E⟩, ⟨0x80000004, 0xFFFFFC0E⟩, ⟨0x40000400, 0xFFFFFC0F⟩, ⟨0x00000400, 0xFFFFFC0F⟩,
    ⟨0x00000401, 0xFFFFFC0F⟩, ⟨0x00000402, 0xFFFFFC0F⟩, ⟨0x00000403, 0xFFFFFC0F⟩, ⟨0x00000404, 0xFFFFFC0F⟩, ⟨0x00000405, 0xFFFFFC0F⟩, ⟨0x40000405, 0xFFFFFC0F⟩,
    ⟨0x00000406, 0xFFFFFC0F⟩, ⟨0x40000406, 0xFFFFFC0F⟩, ⟨0x80000400, 0xFFFFFC0D⟩, ⟨0x00000800, 0xFFFFFC0F⟩, ⟨0x00000801, 0xFFFFFC0F⟩, ⟨0x40000801, 0xFFFFFC0F⟩,
    ⟨0x00000802, 0xFFFFFC0F⟩, ⟨0x40000802, 0xFFFFFC0F⟩, ⟨0x00000803, 0xFFFFFC0F⟩, ⟨0x00000804, 0xFFFFFC0F⟩, ⟨0x80000800, 0xFFFFFC0E⟩, ⟨0xC0000800, 0xFFFFFC0E⟩,
    ⟨0xC0000C0F, 0xFFFFFFFF⟩ ]

/-- The instance count of a unit: N_W, N_CD, N_DI; UNIT 3 holds RESET alone, whose INST is 0 (20_memory.md R201, R306). -/
def instanceCount (nDi : Nat) (unit : BitVec 2) : Nat :=
  match unit.toNat with
  | 0 => nW
  | 1 => nCd
  | 2 => nDi
  | _ => 1

/-- A descriptor is an operation: it matches a row and its INST is below the unit's instance count (R310). -/
def matchesRow (nDi : Nat) (d : Descriptor) : Bool :=
  opcodeRows.any (fun r => d &&& r.mask = r.pattern) && decide ((instOf d).toNat < instanceCount nDi (unitOf d))

/-- The operation that the decoder reads from `nbits` bits `w` of the opcode table. Every descriptor is one 32-bit word (R311),
stored nowhere, so there is no byte order to apply; bits above `nbits` are 0. N_DI is that of `Config.vectors` (log 1). -/
def decodeTableWord (nbits w : Nat) : Option Instr :=
  match decode Config.vectors.nDi (BitVec.ofNat 32 (w % 2 ^ nbits)) with
  | .ok i => some i
  | .error _ => none

end Sys2Proof
end

