-- ==== Sys2Proof/Machine/State.lean ====
section
/-! DEFINITION. The state of CORE as plain data (10_state.md R102 to R108), its value after reset (70_reset_and_hazards.md R900,
R901), and the reasons a step is not admitted (60_exceptions.md R800). -/

namespace Sys2Proof.Machine

/-- A line of a Wiegand instance. -/
inductive Line where
  | d0
  | d1
  deriving DecidableEq, Repr

/-- The noise codes (60_exceptions.md R803). Their numbers are `Noise.code` (Flags.lean). -/
inductive Noise where
  | none
  | repeatedEdge
  | pulseTooEarly
  | concurrentLines
  | unexpectedLine
  | badPulseWidth
  | clockTooEarly
  deriving DecidableEq, Repr

/-- The status codes of a host response (60_exceptions.md R801). Their numbers are `Status.code` (Flags.lean). -/
inductive Status where
  | ok
  | busy
  | inval
  | nodev
  | decErr
  deriving DecidableEq, Repr

/-- The response of a host access (30_encoding.md R308). -/
structure Response where
  status : Status
  value : Word
  deriving DecidableEq, Repr

/-- The instance that holds a physical line (10_state.md R106). -/
inductive Owner where
  | w (n : WIdx)
  | cd (j : CdIdx)
  deriving DecidableEq, Repr

/-- A settled value: 0, 1 or UNDEF (10_state.md R105). -/
inductive Settled where
  | off
  | on
  | undef
  deriving DecidableEq, Repr

/-- The one-shot timer of a filter (10_state.md R105). -/
inductive Pend where
  | idle
  | armed (level : Bool) (deadline : Micros)
  deriving DecidableEq, Repr

/-- A Wiegand record W[i] (10_state.md R103). -/
structure Wiegand where
  enabled : Bool
  wasLowD0 : Bool
  wasLowD1 : Bool
  activeLine : Option Line
  word : Word
  bitCount : BitCount
  lastBitTs : Micros
  noise : Noise
  itvlMin : Micros
  itvlMax : Micros
  widthMin : Micros
  widthMax : Micros
  snapTs : Micros
  snapBits : BitCount
  snapWord : Word
  deriving DecidableEq, Repr

/-- A clock-data record CD[j] (10_state.md R104). -/
structure ClockData where
  enabled : Bool
  word : Word
  bitCount : BitCount
  lastClockTs : Micros
  noise : Noise
  periodMin : Micros
  periodMax : Micros
  snapTs : Micros
  snapBits : BitCount
  snapWord : Word
  deriving DecidableEq, Repr

/-- A debounce record DEB[k] (10_state.md R105). -/
structure Debounce where
  holdOnMs : Millis
  holdOffMs : Millis
  settled : Settled
  onCnt : Word
  offCnt : Word
  pend : Pend
  deriving DecidableEq, Repr

/-- What the environment supplies with one step (00_scope.md R13): the descriptor, WDATA, `now`, and the lines for which
EXT_CLAIMED is true. -/
structure StepInput where
  desc : Descriptor
  wdata : Word
  now : Micros
  ext : List LineId
  deriving DecidableEq, Repr

/-- The machine. The state of CORE is `w1` to `claim` (10_state.md R102); the other fields are the model's own: they carry the
configuration (R108), the operands of the step in progress (R107), its response and the steps to come (logs 1 to 6). -/
structure State where
  /-- The configuration, fixed for a run (10_state.md R108). -/
  cfg : Config
  /-- W[0]. -/
  w1 : Wiegand
  /-- W[1]. -/
  w2 : Wiegand
  /-- CD[0]. -/
  cd1 : ClockData
  /-- CD[1]. -/
  cd2 : ClockData
  /-- DEB[0] to DEB[N_DI − 1]. -/
  deb : List Debounce
  /-- The claim table: (line, holder), lines strictly rising; an unlisted line is claimed by none (log 11). -/
  claim : List (LineId × Owner)
  /-- `now` of the step in progress, and of the last step between steps (60_exceptions.md R814). -/
  now : Micros
  /-- No step has been taken since the last block reset (R814). -/
  fresh : Bool
  /-- WDATA of the step in progress (30_encoding.md R307). -/
  wdata : Word
  /-- The lines with EXT_CLAIMED true at the step in progress (10_state.md R107). -/
  extClaimed : List LineId
  /-- The response of the last step; none for an EVT or SYS step (30_encoding.md R308). -/
  resp : Option Response
  /-- The steps to come, in order (20_memory.md R208; log 2). -/
  inputs : List StepInput
  deriving DecidableEq, Repr

/-- CORE raises no exception and no step of it halts (60_exceptions.md R800): there is no fault, so this type is empty. Safe. -/
inductive Fault where
  deriving DecidableEq, Repr

/-- Why a step is not admitted (60_exceptions.md R800). A refused step has no effect: the state after it is the state before. -/
inductive Refusal where
  /-- An arm of `exec` without a meaning. No arm is. Safe. -/
  | notModelled (mnemonic : String)
  /-- `step`, and the meanings of an event or expiry of a filter that does not exist: an EVT or SYS that is no operation
  (30_encoding.md R313). Safe: the spec gives it no step. -/
  | notAnOperation
  /-- `step`: `now` + 2^42 reaches 2^64 (60_exceptions.md R814, 93_implementation_defined.md). Safe: a premise of every run. -/
  | timeBaseExhausted
  /-- `step`: the first step after a block reset is not stamped T_RESET (R814). Safe: such a run is not one of the spec's. -/
  | notAtTReset
  /-- `step`: `now` is below that of the step before (R814). Safe. -/
  | timeDecreased
  /-- `step`: `now` is past the deadline of a pending debounce timer (43_debounce.md R602 (b)). Safe. -/
  | pastDeadline
  /-- `step`: a line event of a filter, or a host access to its registers, at or after the deadline of its pending timer
  (R602 (c)). Safe. -/
  | filterDue
  /-- The meaning of EXPIRE: no timer of the filter is pending with `now` as its deadline (R602 (d)). Safe. -/
  | expireNotDue
  deriving DecidableEq, Repr

/-- The "reset" column of 10_state.md R103. -/
def Wiegand.reset (c : Config) : Wiegand where
  enabled := false
  wasLowD0 := false
  wasLowD1 := false
  activeLine := none
  word := 0
  bitCount := 0
  lastBitTs := 0
  noise := .none
  itvlMin := c.wItvlMinRst
  itvlMax := c.wItvlMaxRst
  widthMin := c.wWidthMinRst
  widthMax := c.wWidthMaxRst
  snapTs := 0
  snapBits := 0
  snapWord := 0

/-- The "reset" column of 10_state.md R104. -/
def ClockData.reset (c : Config) : ClockData where
  enabled := false
  word := 0
  bitCount := 0
  lastClockTs := 0
  noise := .none
  periodMin := c.cdPeriodMinRst
  periodMax := c.cdPeriodMaxRst
  snapTs := 0
  snapBits := 0
  snapWord := 0

/-- The "reset" column of 10_state.md R105. -/
def Debounce.reset (c : Config) : Debounce where
  holdOnMs := c.debOnMsRst
  holdOffMs := c.debOffMsRst
  settled := .undef
  onCnt := 0
  offCnt := 0
  pend := .idle

/-- The machine right after power-on or block reset under a configuration (70_reset_and_hazards.md R900, R901): every record at
its reset column, every line unclaimed, the next step due at T_RESET, and no step to come yet (logs 2, 4, 5, 6). -/
def State.resetFor (c : Config) : State where
  cfg := c
  w1 := .reset c
  w2 := .reset c
  cd1 := .reset c
  cd2 := .reset c
  deb := List.replicate c.nDi (.reset c)
  claim := []
  now := c.tReset
  fresh := true
  wdata := 0
  extClaimed := []
  resp := none
  inputs := []

/-- The machine right after reset, under the example configuration of 95_test_vectors.md. DESIGN CHOICE (log 1), unsafe: the
spec leaves the parameters `OPEN`, so no statement rests on their values here. -/
def State.reset : State := State.resetFor Config.vectors

end Sys2Proof.Machine
end

