-- ==== Sys2Proof/Machine/Flags.lean ====
section
/-! DEFINITION. The numbers of the status and noise codes and of the settled value, and the computed conditions: busy, and
whether the environment's time fits (60_exceptions.md R801, R803; 44_snapshot.md R700, R701; 10_state.md R122). -/

namespace Sys2Proof.Machine

/-- The number of a status code (R801). -/
def Status.code : Status → Nat
  | .ok => 0
  | .busy => 1
  | .inval => 2
  | .nodev => 3
  | .decErr => 4

/-- The number of a noise code, 8 bits (R803). -/
def Noise.code : Noise → BitVec 8
  | .none => 0
  | .repeatedEdge => 1
  | .pulseTooEarly => 2
  | .concurrentLines => 3
  | .unexpectedLine => 4
  | .badPulseWidth => 5
  | .clockTooEarly => 6

/-- The DEB register's STATE field (10_state.md R122). -/
def Settled.code : Settled → BitVec 2
  | .off => 0
  | .on => 1
  | .undef => 2

/-- The settled value that a raw level commits to: level 1 is on (92_eei_decisions.md D23). -/
def Settled.ofLevel (level : Bool) : Settled := if level then .on else .off

/-- Wiegand busy: `now - lastBitTs <= itvlMax` (44_snapshot.md R700). -/
def wiegandBusy (now : Micros) (r : Wiegand) : Bool := decide (now - r.lastBitTs ≤ r.itvlMax)

/-- Clock-data busy: `now - lastClockTs <= periodMax` (44_snapshot.md R701). -/
def clockDataBusy (now : Micros) (r : ClockData) : Bool := decide (now - r.lastClockTs ≤ r.periodMax)

/-- A pending timer whose deadline is before `now` (43_debounce.md R602 (b)). -/
def pastDeadline (now : Micros) (d : Debounce) : Bool :=
  match d.pend with
  | .idle => false
  | .armed _ deadline => decide (deadline < now)

/-- A pending timer whose deadline is `now` or before it (R602 (c)). -/
def timerDue (now : Micros) (d : Debounce) : Bool :=
  match d.pend with
  | .idle => false
  | .armed _ deadline => decide (deadline ≤ now)

end Sys2Proof.Machine
end

