-- ==== Sys2Proof/Machine/Operands.lean ====
section
/-! DEFINITION. The operand forms: the write operand as each writable register takes it (30_encoding.md R307), the sampled LEVEL and
DATA (R305), and the extension of a field to a 64-bit response value (R308). -/

namespace Sys2Proof.Machine

/-- WDATA of a write of ENABLED: all 64 bits are compared with 0 and 1; any other value is malformed (R307). -/
def enabledOperand (v : Word) : Option Bool :=
  if v = 1 then some true else if v = 0 then some false else none

/-- WDATA of a write of a hold time: below 2^32 it is WDATA[31:0]; a larger value is malformed (R307). -/
def holdOperand (v : Word) : Option Millis :=
  if v.toNat < 2 ^ 32 then some (v.setWidth 32) else none

/-- `zext_64`: a field widened to 64 bits with zeros above (00_scope.md R10). -/
def zext64 {w : Nat} (v : BitVec w) : Word := v.setWidth 64

/-- `isLow <- (LEVEL == 0)` (41_wiegand.md R402). -/
def isLow (level : Bool) : Bool := !level

/-- The bit a pulse on a Wiegand line appends: 1 for D1, 0 for D0 (41_wiegand.md R407). -/
def Line.bit : Line → Word
  | .d0 => 0
  | .d1 => 1

/-- The other line of a Wiegand instance. -/
def Line.other : Line → Line
  | .d0 => .d1
  | .d1 => .d0

/-- The bit a clock edge appends: the sampled data level inverted (42_clock_data.md R502). -/
def clockBit (data : Bool) : Word := if data then 0 else 1

/-- A word with one bit shifted in from the low end (41_wiegand.md R407, 42_clock_data.md R502). -/
def shiftIn (word bit : Word) : Word := (word <<< 1) ||| bit

/-- `hold_us(level)`: the hold time of a level, in µs, without wrap (43_debounce.md R600). -/
def holdUs (d : Debounce) (level : Bool) : Micros :=
  zext64 (if level then d.holdOnMs else d.holdOffMs) * 1000

end Sys2Proof.Machine
end

