-- ==== Sys2Proof/Machine/Ops.lean ====
section
/-! DEFINITION. The shared operations: the instance records, the claim table, the response of a host access, and the admission of
a step. CORE takes no exception and returns from none (60_exceptions.md R800, R810, R811): what stands in their place is
`State.respond`, the one operation by which a host access reports, and `State.refusalByTime`, the one by which a step is turned away. -/

namespace Sys2Proof.Machine

/-- W[n]. -/
def State.w (s : State) (n : WIdx) : Wiegand :=
  match n with
  | 0 => s.w1
  | 1 => s.w2

/-- `W[n] <- r`. -/
def State.setW (s : State) (n : WIdx) (r : Wiegand) : State :=
  match n with
  | 0 => { s with w1 := r }
  | 1 => { s with w2 := r }

/-- CD[j]. -/
def State.cd (s : State) (j : CdIdx) : ClockData :=
  match j with
  | 0 => s.cd1
  | 1 => s.cd2

/-- `CD[j] <- r`. -/
def State.setCd (s : State) (j : CdIdx) (r : ClockData) : State :=
  match j with
  | 0 => { s with cd1 := r }
  | 1 => { s with cd2 := r }

/-- DEB[k], where the filter exists. -/
def State.filter (s : State) (k : DiIdx) : Option Debounce := s.deb[k.val]?

/-- `DEB[k] <- d`. -/
def State.setFilter (s : State) (k : DiIdx) (d : Debounce) : State := { s with deb := s.deb.set k.val d }

/-- LINE_MAP of a Wiegand instance: its D0 and D1 lines (00_scope.md R8). -/
def wLines (c : Config) (n : WIdx) : LinePair :=
  match n with
  | 0 => c.w1Lines
  | 1 => c.w2Lines

/-- LINE_MAP of a clock-data instance: its clock and data lines (00_scope.md R8). -/
def cdLines (c : Config) (j : CdIdx) : LinePair :=
  match j with
  | 0 => c.cd1Lines
  | 1 => c.cd2Lines

/-- The two lines of the instance that an owner names. -/
def linesOf (c : Config) : Owner → LinePair
  | .w n => wLines c n
  | .cd j => cdLines c j

/-- The entry of a line in a claim table; an unlisted line is claimed by none (10_state.md R106). -/
def claimAt : List (LineId × Owner) → LineId → Option Owner
  | [], _ => none
  | (l, o) :: rest, ln => if l = ln then some o else claimAt rest ln

/-- `claim[ln] <- o`. -/
def takeClaim : List (LineId × Owner) → LineId → Owner → List (LineId × Owner)
  | [], ln, o => [(ln, o)]
  | (l, p) :: rest, ln, o =>
    if l = ln then (ln, o) :: rest
    else if ln < l then (ln, o) :: (l, p) :: rest
    else (l, p) :: takeClaim rest ln o

/-- `claim[ln] <- NONE`. -/
def dropClaim : List (LineId × Owner) → LineId → List (LineId × Owner)
  | [], _ => []
  | (l, p) :: rest, ln => if l = ln then dropClaim rest ln else (l, p) :: dropClaim rest ln

/-- The canonical form of a claim table: lines strictly rising. -/
def claimWf : List (LineId × Owner) → Bool
  | [] => true
  | [_] => true
  | (l, _) :: (m, q) :: rest => decide (l < m) && claimWf ((m, q) :: rest)

/-- A line is held: claimed by an instance, or outside CORE (41_wiegand.md R408). -/
def State.held (s : State) (ln : LineId) : Bool :=
  (claimAt s.claim ln).isSome || s.extClaimed.contains ln

/-- One of two lines is held. -/
def State.pairHeld (s : State) (p : LinePair) : Bool := s.held p.first || s.held p.second

/-- Both lines of a pair claimed for one instance (R408, 42_clock_data.md R503). -/
def State.claimPair (s : State) (p : LinePair) (o : Owner) : State :=
  { s with claim := takeClaim (takeClaim s.claim p.first o) p.second o }

/-- Both lines of a pair released (41_wiegand.md R409, 42_clock_data.md R504). -/
def State.releasePair (s : State) (p : LinePair) : State :=
  { s with claim := dropClaim (dropClaim s.claim p.first) p.second }

/-- `respond(status, value)` (00_scope.md R12). A status other than OK carries value 0 (60_exceptions.md R802). -/
def State.respond (s : State) (status : Status) (value : Word) : State :=
  { s with resp := some ⟨status, match status with | .ok => value | _ => 0⟩ }

/-- The end of an EVT or SYS step, which has no response (30_encoding.md R308). -/
def State.silent (s : State) : State := { s with resp := none }

/-- A host access that completes with OK and a value. -/
def State.answer (s : State) (value : Word) : Host.Outcome State Fault Refusal := .next (s.respond .ok value)

/-- A host access that ends with a status other than OK and no effect (60_exceptions.md R802). -/
def State.fail (s : State) (status : Status) : Host.Outcome State Fault Refusal := .next (s.respond status 0)

/-- A host access to a filter that must exist; one to a filter that does not is DECERR (30_encoding.md R312; log 12). -/
def withFilter (s : State) (k : DiIdx) (f : Debounce → Host.Outcome State Fault Refusal) :
    Host.Outcome State Fault Refusal :=
  match s.filter k with
  | some d => f d
  | none => s.fail .decErr

/-- An event or expiry of a filter that must exist; one of a filter that does not is no operation (R313; log 12). -/
def withEventFilter (s : State) (k : DiIdx) (f : Debounce → Host.Outcome State Fault Refusal) :
    Host.Outcome State Fault Refusal :=
  match s.filter k with
  | some d => f d
  | none => .refused .notAnOperation

/-- The filter that a step touches has a timer due at or before `now` (43_debounce.md R602 (c)). -/
def State.touchesDue (s : State) (x : StepInput) : Bool :=
  match touchedFilter x.desc with
  | some k =>
    match s.filter k with
    | some d => timerDue x.now d
    | none => false
  | none => false

/-- The admission of a step by its time: the reason it is refused, or none (60_exceptions.md R814; 43_debounce.md R602 (b), (c);
93_implementation_defined.md). Each test holds for every step, SYS RESET and DECERR accesses among them (log 9); the order in
which they are made only chooses which reason is named (log 7). That a first step after reset off T_RESET is refused is DEDUCED (log
6), safe. -/
def State.refusalByTime (s : State) (x : StepInput) : Option Refusal :=
  if timeFits x.now = false then some .timeBaseExhausted
  else if s.fresh = true ∧ x.now ≠ s.cfg.tReset then some .notAtTReset
  else if s.fresh = false ∧ x.now < s.now then some .timeDecreased
  else if s.deb.any (pastDeadline x.now) then some .pastDeadline
  else if s.touchesDue x then some .filterDue
  else none

/-- The state in which an admitted step runs: its operands stand where the meanings read them, and it is no longer to come. -/
def State.latch (s : State) (x : StepInput) (rest : List StepInput) : State :=
  { s with inputs := rest, now := x.now, fresh := false, wdata := x.wdata, extClaimed := x.ext }

/-- The operation that a descriptor names in this state: its N_DI is that of the configuration. -/
def State.decodeStep (s : State) (x : StepInput) : Except DecodeReject Instr := decode s.cfg.nDi x.desc

/-- What becomes of a step whose descriptor is no operation: DECERR for a host access (30_encoding.md R312), refused for an EVT or
SYS (R313). -/
def State.rejected (s : State) : DecodeReject → Host.Outcome State Fault Refusal
  | .decErr => s.fail .decErr
  | .noSuchOperation => .refused .notAnOperation

/-- The steps to come with one more in front of them. -/
def State.present (s : State) (x : StepInput) : State := { s with inputs := x :: s.inputs }

end Sys2Proof.Machine
end

