-- ==== Sys2Proof/Machine/ClockData.lean ====
section
/-! DEFINITION. The clock-data decoder (42_clock_data.md): rows 17, 18 and 23 to 27 of 30_encoding.md R310. -/

namespace Sys2Proof.Machine

/-- `CD_reset(j)` (R500): word and bit count; nothing else. -/
def clockDataReset (r : ClockData) : ClockData := { r with word := 0, bitCount := 0 }

/-- The period test fails low: a bit is held and the edge comes too early (R502). -/
def clockTooEarly (now : Micros) (r : ClockData) : Bool :=
  decide (r.bitCount ≠ 0 ∧ now - r.lastClockTs < r.periodMin)

/-- The timeout: a bit is held and the gap is above the maximum, so a new word starts silently (R502). -/
def clockDataTimeout (now : Micros) (r : ClockData) : ClockData :=
  if r.bitCount ≠ 0 ∧ r.periodMax < now - r.lastClockTs then { r with word := 0, bitCount := 0 } else r

/-- The sampling of the data line; a full word drops the bit (R502). -/
def sampleData (data : Bool) (r : ClockData) : ClockData :=
  if 64 ≤ r.bitCount.toNat then r
  else { r with word := shiftIn r.word (clockBit data), bitCount := r.bitCount + 1 }

/-- `CD_edge(j, d, now)` (R502). -/
def clockEdge (data : Bool) (now : Micros) (r : ClockData) : ClockData :=
  if r.enabled = false then r
  else if clockTooEarly now r then clockDataReset { r with noise := .clockTooEarly }
  else sampleData data { clockDataTimeout now r with lastClockTs := now }

/-- The record of an instance that has just been enabled (R503). -/
def clockDataEnabled (r : ClockData) : ClockData := { clockDataReset r with enabled := true }

/-- `CD_enable(j)` (R503). -/
def State.enableCd (s : State) (j : CdIdx) : Host.Outcome State Fault Refusal :=
  if (s.cd j).enabled then s.answer 0
  else if s.pairHeld (cdLines s.cfg j) then s.fail .busy
  else ((s.claimPair (cdLines s.cfg j) (.cd j)).setCd j (clockDataEnabled (s.cd j))).answer 0

/-- `CD_disable(j)` (R504). -/
def State.disableCd (s : State) (j : CdIdx) : Host.Outcome State Fault Refusal :=
  if (s.cd j).enabled then
    ((s.releasePair (cdLines s.cfg j)).setCd j { s.cd j with enabled := false }).answer 0
  else s.answer 0

/-- `WR cd<n>.ENABLED, v` (R510). -/
def execWrCdEnabled (j : CdIdx) (s : State) : Host.Outcome State Fault Refusal :=
  match enabledOperand s.wdata with
  | some true => s.enableCd j
  | some false => s.disableCd j
  | none => s.fail .inval

/-- `RD cd<n>.ENABLED` (R511). -/
def execRdCdEnabled (j : CdIdx) (s : State) : Host.Outcome State Fault Refusal :=
  s.answer (zext64 (BitVec.ofBool (s.cd j).enabled))

/-- `RD cd<n>.CLOCK_PERIOD_MIN` (R512). -/
def execRdCdPeriodMin (j : CdIdx) (s : State) : Host.Outcome State Fault Refusal :=
  s.answer (s.cd j).periodMin

/-- `WR cd<n>.CLOCK_PERIOD_MIN, v` (R513): stored as written. -/
def execWrCdPeriodMin (j : CdIdx) (s : State) : Host.Outcome State Fault Refusal :=
  (s.setCd j { s.cd j with periodMin := s.wdata }).answer 0

/-- `RD cd<n>.CLOCK_PERIOD_MAX` (R514). -/
def execRdCdPeriodMax (j : CdIdx) (s : State) : Host.Outcome State Fault Refusal :=
  s.answer (s.cd j).periodMax

/-- `WR cd<n>.CLOCK_PERIOD_MAX, v` (R515): stored as written. -/
def execWrCdPeriodMax (j : CdIdx) (s : State) : Host.Outcome State Fault Refusal :=
  (s.setCd j { s.cd j with periodMax := s.wdata }).answer 0

/-- `EV cd<n>.CLK data=d` (R516): no response. -/
def execEvCdClk (j : CdIdx) (data : Bool) (s : State) : Host.Outcome State Fault Refusal :=
  .next (s.setCd j (clockEdge data s.now (s.cd j))).silent

end Sys2Proof.Machine
end

