-- ==== Sys2Proof/Machine/Debounce.lean ====
section
/-! DEFINITION. The debounce filter (43_debounce.md): rows 28 to 36 of 30_encoding.md R310. -/

namespace Sys2Proof.Machine

/-- The timer is armed for this level. -/
def armedFor (level : Bool) : Pend → Bool
  | .idle => false
  | .armed l _ => l == level

/-- `DEB_event(k, l, now)` (R601): an event of the pending level changes nothing; any other arms or re-arms the timer. -/
def debounceEvent (level : Bool) (now : Micros) (d : Debounce) : Debounce :=
  if armedFor level d.pend then d else { d with pend := .armed level (now + holdUs d level) }

/-- One transition of the settled value to a level, counted once (R603). -/
def commitLevel (level : Bool) (d : Debounce) : Debounce :=
  if d.settled = Settled.ofLevel level then d
  else if level then { d with settled := .on, onCnt := d.onCnt + 1 }
  else { d with settled := .off, offCnt := d.offCnt + 1 }

/-- `DEB_expire(k, r)` of a timer armed for `level` (R603): the timer is idle; a sample equal to that level commits it. -/
def debounceExpire (level sample : Bool) (d : Debounce) : Debounce :=
  let idle := { d with pend := .idle }
  if sample = level then commitLevel level idle else idle

/-- `DEB_reconfig(k)` (R604). -/
def debounceReconfig (d : Debounce) : Debounce :=
  { d with settled := .undef, onCnt := 0, offCnt := 0, pend := .idle }

/-- `RD di<n>.DEB` (R610). -/
def execRdDiDeb (k : DiIdx) (s : State) : Host.Outcome State Fault Refusal :=
  withFilter s k fun d => s.answer (zext64 d.settled.code)

/-- `RD di<n>.DEB_ON_MS` (R611). -/
def execRdDiOnMs (k : DiIdx) (s : State) : Host.Outcome State Fault Refusal :=
  withFilter s k fun d => s.answer (zext64 d.holdOnMs)

/-- `WR di<n>.DEB_ON_MS, v` (R612). -/
def execWrDiOnMs (k : DiIdx) (s : State) : Host.Outcome State Fault Refusal :=
  withFilter s k fun d =>
    match holdOperand s.wdata with
    | some ms => (s.setFilter k (debounceReconfig { d with holdOnMs := ms })).answer 0
    | none => s.fail .inval

/-- `RD di<n>.DEB_OFF_MS` (R613). -/
def execRdDiOffMs (k : DiIdx) (s : State) : Host.Outcome State Fault Refusal :=
  withFilter s k fun d => s.answer (zext64 d.holdOffMs)

/-- `WR di<n>.DEB_OFF_MS, v` (R614). -/
def execWrDiOffMs (k : DiIdx) (s : State) : Host.Outcome State Fault Refusal :=
  withFilter s k fun d =>
    match holdOperand s.wdata with
    | some ms => (s.setFilter k (debounceReconfig { d with holdOffMs := ms })).answer 0
    | none => s.fail .inval

/-- `RD di<n>.DEB_ON_CNT` (R615). -/
def execRdDiOnCnt (k : DiIdx) (s : State) : Host.Outcome State Fault Refusal :=
  withFilter s k fun d => s.answer d.onCnt

/-- `RD di<n>.DEB_OFF_CNT` (R616). -/
def execRdDiOffCnt (k : DiIdx) (s : State) : Host.Outcome State Fault Refusal :=
  withFilter s k fun d => s.answer d.offCnt

/-- `EV di<n>.IN l` (R617): no response. -/
def execEvDiIn (k : DiIdx) (level : Bool) (s : State) : Host.Outcome State Fault Refusal :=
  withEventFilter s k fun d => .next (s.setFilter k (debounceEvent level s.now d)).silent

/-- `SYS di<n>.EXPIRE r` (R618): admitted only when the timer is pending and `now` is its deadline (R602 (d)); no response. -/
def execSysExpire (k : DiIdx) (sample : Bool) (s : State) : Host.Outcome State Fault Refusal :=
  withEventFilter s k fun d =>
    match d.pend with
    | .idle => .refused .expireNotDue
    | .armed level deadline =>
      if s.now = deadline then .next (s.setFilter k (debounceExpire level sample d)).silent
      else .refused .expireNotDue

end Sys2Proof.Machine
end

