-- ==== Sys2Proof/Machine/Reset.lean ====
section
/-! DEFINITION. The block reset (70_reset_and_hazards.md R900): row 37 of 30_encoding.md R310. -/

namespace Sys2Proof.Machine

/-- `SYS RESET` (R900): every record at its reset column and every line unclaimed, in one step; a new run begins, whose next step
is due at T_RESET. The configuration and the steps to come are not CORE's state and stay (log 13). -/
def execSysReset (s : State) : Host.Outcome State Fault Refusal :=
  .next { State.resetFor s.cfg with inputs := s.inputs }

end Sys2Proof.Machine
end

