-- ==== Sys2Proof/Machine/Snapshot.lean ====
section
/-! DEFINITION. The decoded-word snapshot and noise registers (44_snapshot.md): rows 3 to 6 and 19 to 22 of 30_encoding.md R310. -/

namespace Sys2Proof.Machine

/-- The capture of a Wiegand decoder: all three shadow registers in one step (R702). -/
def wiegandCapture (r : Wiegand) : Wiegand :=
  { r with snapTs := r.lastBitTs, snapBits := r.bitCount, snapWord := r.word }

/-- The capture of a clock-data decoder (R706). -/
def clockDataCapture (r : ClockData) : ClockData :=
  { r with snapTs := r.lastClockTs, snapBits := r.bitCount, snapWord := r.word }

/-- `RD w<n>.DATA_TS` (R702): NODEV while disabled, BUSY in the busy window, else capture and answer the timestamp. -/
def execRdWDataTs (n : WIdx) (s : State) : Host.Outcome State Fault Refusal :=
  if (s.w n).enabled = false then s.fail .nodev
  else if wiegandBusy s.now (s.w n) then s.fail .busy
  else (s.setW n (wiegandCapture (s.w n))).answer (s.w n).lastBitTs

/-- `RD w<n>.DATA_BITS` (R703). -/
def execRdWDataBits (n : WIdx) (s : State) : Host.Outcome State Fault Refusal :=
  s.answer (zext64 (s.w n).snapBits)

/-- `RD w<n>.DATA_WORD` (R704). -/
def execRdWDataWord (n : WIdx) (s : State) : Host.Outcome State Fault Refusal :=
  s.answer (s.w n).snapWord

/-- `RD w<n>.NOISE` (R705): read and clear in one step. -/
def execRdWNoise (n : WIdx) (s : State) : Host.Outcome State Fault Refusal :=
  (s.setW n { s.w n with noise := .none }).answer (zext64 (s.w n).noise.code)

/-- `RD cd<n>.DATA_TS` (R706): NODEV while disabled, BUSY in the busy window, else capture and answer the timestamp. -/
def execRdCdDataTs (j : CdIdx) (s : State) : Host.Outcome State Fault Refusal :=
  if (s.cd j).enabled = false then s.fail .nodev
  else if clockDataBusy s.now (s.cd j) then s.fail .busy
  else (s.setCd j (clockDataCapture (s.cd j))).answer (s.cd j).lastClockTs

/-- `RD cd<n>.DATA_BITS` (R707). -/
def execRdCdDataBits (j : CdIdx) (s : State) : Host.Outcome State Fault Refusal :=
  s.answer (zext64 (s.cd j).snapBits)

/-- `RD cd<n>.DATA_WORD` (R708). -/
def execRdCdDataWord (j : CdIdx) (s : State) : Host.Outcome State Fault Refusal :=
  s.answer (s.cd j).snapWord

/-- `RD cd<n>.NOISE` (R709): read and clear in one step. -/
def execRdCdNoise (j : CdIdx) (s : State) : Host.Outcome State Fault Refusal :=
  (s.setCd j { s.cd j with noise := .none }).answer (zext64 (s.cd j).noise.code)

end Sys2Proof.Machine
end

