-- ==== Sys2Proof/Machine/Wiegand.lean ====
section
/-! DEFINITION. The Wiegand decoder (41_wiegand.md): rows 1, 2 and 7 to 16 of 30_encoding.md R310. -/

namespace Sys2Proof.Machine

/-- `W_reset(i)` (R400): word, bit count and active line; nothing else. -/
def wiegandReset (r : Wiegand) : Wiegand := { r with word := 0, bitCount := 0, activeLine := none }

/-- A noise code recorded with a decoder reset (60_exceptions.md R803). -/
def wiegandNoise (code : Noise) (r : Wiegand) : Wiegand := wiegandReset { r with noise := code }

/-- wasLow[L] (10_state.md R103). -/
def Wiegand.wasLow (r : Wiegand) : Line → Bool
  | .d0 => r.wasLowD0
  | .d1 => r.wasLowD1

/-- `wasLow[L] <- low` (R403). -/
def Wiegand.setWasLow (r : Wiegand) (L : Line) (low : Bool) : Wiegand :=
  match L with
  | .d0 => { r with wasLowD0 := low }
  | .d1 => { r with wasLowD1 := low }

/-- The interval test fails low: a bit is held and the pulse starts too early (R404). -/
def pulseTooEarly (now : Micros) (r : Wiegand) : Bool := decide (r.bitCount ≠ 0 ∧ now - r.lastBitTs < r.itvlMin)

/-- The timeout: a bit is held and the gap is above the maximum, so a new word starts silently (R405). -/
def wiegandTimeout (now : Micros) (r : Wiegand) : Wiegand :=
  if r.bitCount ≠ 0 ∧ r.itvlMax < now - r.lastBitTs then { r with word := 0, bitCount := 0 } else r

/-- The concurrency test and the start of a pulse (R406). -/
def openPulse (L : Line) (now : Micros) (r : Wiegand) : Wiegand :=
  match r.activeLine with
  | some _ => wiegandNoise .concurrentLines r
  | none => { r with activeLine := some L, lastBitTs := now }

/-- A falling edge: R404, then R405, then R406. -/
def fallingEdge (L : Line) (now : Micros) (r : Wiegand) : Wiegand :=
  if pulseTooEarly now r then wiegandNoise .pulseTooEarly r else openPulse L now (wiegandTimeout now r)

/-- The width test and the append of a bit (R407). -/
def appendPulse (L : Line) (now : Micros) (r : Wiegand) : Wiegand :=
  if now - r.lastBitTs < r.widthMin ∨ r.widthMax < now - r.lastBitTs then wiegandNoise .badPulseWidth r
  else { r with word := shiftIn r.word L.bit, bitCount := r.bitCount + 1 }

/-- The end of the active line's pulse: the line is cleared; a full word drops the bit with no width test (R407). -/
def closePulse (L : Line) (now : Micros) (r : Wiegand) : Wiegand :=
  let closed := { r with activeLine := none }
  if 64 ≤ closed.bitCount.toNat then closed else appendPulse L now closed

/-- A rising edge (R407). -/
def risingEdge (L : Line) (now : Micros) (r : Wiegand) : Wiegand :=
  if r.activeLine ≠ some L then wiegandNoise .unexpectedLine r else closePulse L now r

/-- A change of level: wasLow is updated first, whatever follows (R403). -/
def levelChange (L : Line) (low : Bool) (now : Micros) (r : Wiegand) : Wiegand :=
  if low then fallingEdge L now (r.setWasLow L true) else risingEdge L now (r.setWasLow L false)

/-- A notification on line L with a sampled level (R401 to R407). -/
def wiegandEdge (L : Line) (level : Bool) (now : Micros) (r : Wiegand) : Wiegand :=
  if r.enabled = false then r
  else if isLow level = r.wasLow L then { r with noise := .repeatedEdge }
  else levelChange L (isLow level) now r

/-- A line event of a Wiegand instance: no response (R420, R421). -/
def State.wiegandEvent (s : State) (n : WIdx) (L : Line) (level : Bool) : Host.Outcome State Fault Refusal :=
  .next (s.setW n (wiegandEdge L level s.now (s.w n))).silent

/-- The record of an instance that has just been enabled (R408). -/
def wiegandEnabled (r : Wiegand) : Wiegand :=
  { wiegandReset { r with wasLowD0 := false, wasLowD1 := false } with enabled := true }

/-- `W_enable(i)` (R408). -/
def State.enableW (s : State) (n : WIdx) : Host.Outcome State Fault Refusal :=
  if (s.w n).enabled then s.answer 0
  else if s.pairHeld (wLines s.cfg n) then s.fail .busy
  else ((s.claimPair (wLines s.cfg n) (.w n)).setW n (wiegandEnabled (s.w n))).answer 0

/-- `W_disable(i)` (R409). -/
def State.disableW (s : State) (n : WIdx) : Host.Outcome State Fault Refusal :=
  if (s.w n).enabled then
    ((s.releasePair (wLines s.cfg n)).setW n { s.w n with enabled := false }).answer 0
  else s.answer 0

/-- `WR w<n>.ENABLED, v` (R410). -/
def execWrWEnabled (n : WIdx) (s : State) : Host.Outcome State Fault Refusal :=
  match enabledOperand s.wdata with
  | some true => s.enableW n
  | some false => s.disableW n
  | none => s.fail .inval

/-- `RD w<n>.ENABLED` (R411). -/
def execRdWEnabled (n : WIdx) (s : State) : Host.Outcome State Fault Refusal :=
  s.answer (zext64 (BitVec.ofBool (s.w n).enabled))

/-- `RD w<n>.PULSE_ITVL_MIN` (R412). -/
def execRdWItvlMin (n : WIdx) (s : State) : Host.Outcome State Fault Refusal :=
  s.answer (s.w n).itvlMin

/-- `WR w<n>.PULSE_ITVL_MIN, v` (R413): stored as written. -/
def execWrWItvlMin (n : WIdx) (s : State) : Host.Outcome State Fault Refusal :=
  (s.setW n { s.w n with itvlMin := s.wdata }).answer 0

/-- `RD w<n>.PULSE_ITVL_MAX` (R414). -/
def execRdWItvlMax (n : WIdx) (s : State) : Host.Outcome State Fault Refusal :=
  s.answer (s.w n).itvlMax

/-- `WR w<n>.PULSE_ITVL_MAX, v` (R415): stored as written. -/
def execWrWItvlMax (n : WIdx) (s : State) : Host.Outcome State Fault Refusal :=
  (s.setW n { s.w n with itvlMax := s.wdata }).answer 0

/-- `RD w<n>.PULSE_WIDTH_MIN` (R416). -/
def execRdWWidthMin (n : WIdx) (s : State) : Host.Outcome State Fault Refusal :=
  s.answer (s.w n).widthMin

/-- `WR w<n>.PULSE_WIDTH_MIN, v` (R417): stored as written. -/
def execWrWWidthMin (n : WIdx) (s : State) : Host.Outcome State Fault Refusal :=
  (s.setW n { s.w n with widthMin := s.wdata }).answer 0

/-- `RD w<n>.PULSE_WIDTH_MAX` (R418). -/
def execRdWWidthMax (n : WIdx) (s : State) : Host.Outcome State Fault Refusal :=
  s.answer (s.w n).widthMax

/-- `WR w<n>.PULSE_WIDTH_MAX, v` (R419): stored as written. -/
def execWrWWidthMax (n : WIdx) (s : State) : Host.Outcome State Fault Refusal :=
  (s.setW n { s.w n with widthMax := s.wdata }).answer 0

/-- `EV w<n>.D0 l` (R420). -/
def execEvWD0 (n : WIdx) (level : Bool) (s : State) : Host.Outcome State Fault Refusal :=
  s.wiegandEvent n .d0 level

/-- `EV w<n>.D1 l` (R421). -/
def execEvWD1 (n : WIdx) (level : Bool) (s : State) : Host.Outcome State Fault Refusal :=
  s.wiegandEvent n .d1 level

end Sys2Proof.Machine
end

