-- ==== Sys2Proof/Machine/Dispatch.lean ====
section
/-! DEFINITION. The dispatch of an operation to its meaning: one arm per row of 30_encoding.md R310, in the table's order. -/

namespace Sys2Proof.Machine

-- The meaning of an operation in the state that holds its operands.
def exec (i : Instr) (s : State) : Host.Outcome State Fault Refusal :=
  match i with
  | .wrWEnabled n => Sys2Proof.Machine.execWrWEnabled n s
  | .rdWEnabled n => Sys2Proof.Machine.execRdWEnabled n s
  | .rdWDataTs n => Sys2Proof.Machine.execRdWDataTs n s
  | .rdWDataBits n => Sys2Proof.Machine.execRdWDataBits n s
  | .rdWDataWord n => Sys2Proof.Machine.execRdWDataWord n s
  | .rdWNoise n => Sys2Proof.Machine.execRdWNoise n s
  | .rdWItvlMin n => Sys2Proof.Machine.execRdWItvlMin n s
  | .wrWItvlMin n => Sys2Proof.Machine.execWrWItvlMin n s
  | .rdWItvlMax n => Sys2Proof.Machine.execRdWItvlMax n s
  | .wrWItvlMax n => Sys2Proof.Machine.execWrWItvlMax n s
  | .rdWWidthMin n => Sys2Proof.Machine.execRdWWidthMin n s
  | .wrWWidthMin n => Sys2Proof.Machine.execWrWWidthMin n s
  | .rdWWidthMax n => Sys2Proof.Machine.execRdWWidthMax n s
  | .wrWWidthMax n => Sys2Proof.Machine.execWrWWidthMax n s
  | .evWD0 n level => Sys2Proof.Machine.execEvWD0 n level s
  | .evWD1 n level => Sys2Proof.Machine.execEvWD1 n level s
  | .wrCdEnabled j => Sys2Proof.Machine.execWrCdEnabled j s
  | .rdCdEnabled j => Sys2Proof.Machine.execRdCdEnabled j s
  | .rdCdDataTs j => Sys2Proof.Machine.execRdCdDataTs j s
  | .rdCdDataBits j => Sys2Proof.Machine.execRdCdDataBits j s
  | .rdCdDataWord j => Sys2Proof.Machine.execRdCdDataWord j s
  | .rdCdNoise j => Sys2Proof.Machine.execRdCdNoise j s
  | .rdCdPeriodMin j => Sys2Proof.Machine.execRdCdPeriodMin j s
  | .wrCdPeriodMin j => Sys2Proof.Machine.execWrCdPeriodMin j s
  | .rdCdPeriodMax j => Sys2Proof.Machine.execRdCdPeriodMax j s
  | .wrCdPeriodMax j => Sys2Proof.Machine.execWrCdPeriodMax j s
  | .evCdClk j data => Sys2Proof.Machine.execEvCdClk j data s
  | .rdDiDeb k => Sys2Proof.Machine.execRdDiDeb k s
  | .rdDiOnMs k => Sys2Proof.Machine.execRdDiOnMs k s
  | .wrDiOnMs k => Sys2Proof.Machine.execWrDiOnMs k s
  | .rdDiOffMs k => Sys2Proof.Machine.execRdDiOffMs k s
  | .wrDiOffMs k => Sys2Proof.Machine.execWrDiOffMs k s
  | .rdDiOnCnt k => Sys2Proof.Machine.execRdDiOnCnt k s
  | .rdDiOffCnt k => Sys2Proof.Machine.execRdDiOffCnt k s
  | .evDiIn k level => Sys2Proof.Machine.execEvDiIn k level s
  | .sysExpire k level => Sys2Proof.Machine.execSysExpire k level s
  | .sysReset => Sys2Proof.Machine.execSysReset s

end Sys2Proof.Machine
end

