-- ==== Sys2Proof/Machine/Step.lean ====
section
/-! DEFINITION. One step of CORE (00_scope.md R13, 60_exceptions.md R800), and the placing of one step to come. -/

namespace Sys2Proof.Machine

/-- One step: the first step to come is admitted by its time or refused (R814, 43_debounce.md R602), then decoded, and then runs
with its operands. With no step to come CORE waits (70_reset_and_hazards.md R902; log 3). -/
def step (s : State) : Host.Outcome State Fault Refusal :=
  match s.inputs with
  | [] => .next s
  | x :: rest =>
    match s.refusalByTime x with
    | some r => .refused r
    | none =>
      match s.decodeStep x with
      | .ok i => exec i (s.latch x rest)
      | .error e => (s.latch x rest).rejected e

/-- The state with one more step in front of those to come: the descriptor `w`, WDATA 0, stamped `now` (T_RESET right after
reset), no line claimed outside CORE. It stands for the environment that issues the step (log 10). -/
def State.withFetchWord (s : State) (nbits w : Nat) : State :=
  s.present { desc := BitVec.ofNat 32 (w % 2 ^ nbits), wdata := 0, now := s.now, ext := [] }

end Sys2Proof.Machine
end

