-- ==== Sys2Proof/Machine/Routing.lean ====
section
/-! DEFINITION. The routing of a physical line's notification to a line event (60_exceptions.md R805). It is the environment's:
`step` takes the event it yields, and admits events it would not yield (log 18). -/

namespace Sys2Proof.Machine

/-- A notification of the edge source: the line, whether the edge rises, the level of the line and the level of the data line
sampled when the step runs (R805). -/
structure Notification where
  line : LineId
  rising : Bool
  level : Bool
  data : Bool
  deriving DecidableEq, Repr

/-- The event of a line that a Wiegand instance holds: both edges are delivered (R805). -/
def routeWiegand (p : LinePair) (n : WIdx) (e : Notification) : Option Instr :=
  if e.line = p.first then some (.evWD0 n e.level)
  else if e.line = p.second then some (.evWD1 n e.level)
  else none

/-- The event of a line that a clock-data instance holds: rising edges of its clock line only (R805, 42_clock_data.md R501). -/
def routeClockData (p : LinePair) (j : CdIdx) (e : Notification) : Option Instr :=
  if e.line = p.first ∧ e.rising = true then some (.evCdClk j e.data) else none

/-- The event of a line that feeds a filter: every notification (R805). `inputs` lists the input line of each filter, which the
spec leaves unnamed (log 18). -/
def routeDebounce (inputs : List LineId) (e : Notification) : Option Instr :=
  match inputs.idxOf? e.line with
  | some k => if h : k < maxDi then some (.evDiIn ⟨k, h⟩ e.level) else none
  | none => none

/-- The at most one event of a notification: the claim table says who owns the line (R805). -/
def State.route (s : State) (inputs : List LineId) (e : Notification) : Option Instr :=
  match claimAt s.claim e.line with
  | some (.w n) => routeWiegand (wLines s.cfg n) n e
  | some (.cd j) => routeClockData (cdLines s.cfg j) j e
  | none => routeDebounce inputs e

end Sys2Proof.Machine
end

