-- ==== Sys2Proof/Safety.lean ====
section
/-! DEFINITION. The terms in which the claims about CORE are stated: frames (what a step leaves unchanged), runs, and the invariants
of 10_state.md R130 to R133 and 43_debounce.md R602. -/

namespace Sys2Proof.Machine

/-- The model's own fields, but for the response, are unchanged. -/
def SameInputs (s t : State) : Prop :=
  t.cfg = s.cfg ∧ t.now = s.now ∧ t.fresh = s.fresh ∧ t.wdata = s.wdata ∧ t.extClaimed = s.extClaimed ∧ t.inputs = s.inputs

/-- The state of CORE (10_state.md R102) is unchanged. -/
def SameCore (s t : State) : Prop :=
  (∀ n, t.w n = s.w n) ∧ (∀ j, t.cd j = s.cd j) ∧ t.deb = s.deb ∧ t.claim = s.claim

/-- Nothing but the record W[n] and the response may have changed. -/
def OnlyWiegand (n : WIdx) (s t : State) : Prop :=
  (∀ m, m ≠ n → t.w m = s.w m) ∧ (∀ j, t.cd j = s.cd j) ∧ t.deb = s.deb ∧ t.claim = s.claim ∧ SameInputs s t

/-- Nothing but the record CD[j] and the response may have changed. -/
def OnlyClockData (j : CdIdx) (s t : State) : Prop :=
  (∀ n, t.w n = s.w n) ∧ (∀ m, m ≠ j → t.cd m = s.cd m) ∧ t.deb = s.deb ∧ t.claim = s.claim ∧ SameInputs s t

/-- Nothing but the record DEB[k] and the response may have changed. -/
def OnlyDebounce (k : DiIdx) (s t : State) : Prop :=
  (∀ n, t.w n = s.w n) ∧ (∀ j, t.cd j = s.cd j) ∧ t.deb.length = s.deb.length ∧
    (∀ m : DiIdx, m ≠ k → t.filter m = s.filter m) ∧ t.claim = s.claim ∧ SameInputs s t

/-- A line of a pair. -/
def hasLine (p : LinePair) (ln : LineId) : Prop := ln = p.first ∨ ln = p.second

/-- The entry of one line in the claim table. -/
def State.claimOf (s : State) (ln : LineId) : Option Owner := claimAt s.claim ln

/-- After the step the lines of a pair are claimed as given and every other line as before. -/
def ClaimsBecome (p : LinePair) (o : Option Owner) (s t : State) : Prop :=
  ∀ ln, (hasLine p ln → t.claimOf ln = o) ∧ (¬ hasLine p ln → t.claimOf ln = s.claimOf ln)

/-- Nothing but the record W[n], the claim table and the response may have changed. -/
def OnlyWiegandAndClaims (n : WIdx) (s t : State) : Prop :=
  (∀ m, m ≠ n → t.w m = s.w m) ∧ (∀ j, t.cd j = s.cd j) ∧ t.deb = s.deb ∧ SameInputs s t

/-- Nothing but the record CD[j], the claim table and the response may have changed. -/
def OnlyClockDataAndClaims (j : CdIdx) (s t : State) : Prop :=
  (∀ n, t.w n = s.w n) ∧ (∀ m, m ≠ j → t.cd m = s.cd m) ∧ t.deb = s.deb ∧ SameInputs s t

/-- The instance that an owner names is enabled. -/
def State.ownerEnabled (s : State) : Owner → Bool
  | .w n => (s.w n).enabled
  | .cd j => (s.cd j).enabled

/-- One decoder's accumulated bits (10_state.md R130): at most 64, and none of the word's bits above them is set. -/
def BitsFit (word : Word) (bitCount : BitCount) : Prop :=
  bitCount.toNat ≤ 64 ∧ (bitCount.toNat < 64 → word.toNat < 2 ^ bitCount.toNat)

/-- 10_state.md R130 for a Wiegand record. -/
def Wiegand.BitsInv (r : Wiegand) : Prop := BitsFit r.word r.bitCount ∧ r.snapBits.toNat ≤ 64

/-- 10_state.md R130 for a clock-data record. -/
def ClockData.BitsInv (r : ClockData) : Prop := BitsFit r.word r.bitCount ∧ r.snapBits.toNat ≤ 64

/-- 10_state.md R130. -/
def State.BitsInv (s : State) : Prop := (∀ n, (s.w n).BitsInv) ∧ (∀ j, (s.cd j).BitsInv)

/-- 10_state.md R131: the active line was last seen low. -/
def State.ActiveLineInv (s : State) : Prop := ∀ n L, (s.w n).activeLine = some L → (s.w n).wasLow L = true

/-- 10_state.md R132: a line is claimed by exactly the enabled instance it belongs to; and the table is canonical (log 11). -/
def State.ClaimInv (s : State) : Prop :=
  claimWf s.claim = true ∧
    ∀ ln o, s.claimOf ln = some o ↔ (s.ownerEnabled o = true ∧ hasLine (linesOf s.cfg o) ln)

/-- The counts of a filter against its settled value: the inductive form of 10_state.md R133. -/
def Debounce.CountInv (d : Debounce) : Prop :=
  match d.settled with
  | .undef => d.onCnt = 0 ∧ d.offCnt = 0
  | .on => d.onCnt = d.offCnt ∨ d.onCnt = d.offCnt + 1
  | .off => d.offCnt = d.onCnt ∨ d.offCnt = d.onCnt + 1

/-- 10_state.md R133, in its inductive form, for every filter. -/
def State.CountInv (s : State) : Prop := ∀ d ∈ s.deb, d.CountInv

/-- Time has not passed the deadline of a pending timer (43_debounce.md R602 (b)), and the premise of R814 held at the last step. -/
def State.TimerInv (s : State) : Prop :=
  timeFits s.now = true ∧ ∀ d ∈ s.deb, ∀ L deadline, d.pend = .armed L deadline → s.now ≤ deadline

/-- There is one debounce record for each k below N_DI (10_state.md R102), and the configuration is in its ranges. -/
def State.ShapeInv (s : State) : Prop := s.cfg.wf = true ∧ s.deb.length = s.cfg.nDi

/-- All of the invariants. -/
structure State.Inv (s : State) : Prop where
  shape : s.ShapeInv
  bits : s.BitsInv
  activeLine : s.ActiveLineInv
  claims : s.ClaimInv
  counts : s.CountInv
  timers : s.TimerInv

/-- A run of steps, each of which satisfies `P`. -/
inductive RunWith (P : State → State → Prop) : State → State → Prop where
  | refl (s : State) : RunWith P s s
  | next {s t u : State} : step s = .next t → P s t → RunWith P t u → RunWith P s u

/-- The operation that the next step to come names, when its descriptor is one. -/
def State.nextOp (s : State) : Option Instr :=
  match s.inputs with
  | [] => none
  | x :: _ => match s.decodeStep x with
    | .ok i => some i
    | .error _ => none

/-- A host access was answered with OK. -/
def State.answeredOk (t : State) : Prop := ∃ v, t.resp = some ⟨.ok, v⟩

/-- One step that neither is an OK read of DATA_TS of W[n] nor a block reset. -/
def KeepsWiegandShadow (n : WIdx) (s t : State) : Prop :=
  s.nextOp ≠ some .sysReset ∧ ¬ (s.nextOp = some (.rdWDataTs n) ∧ t.answeredOk)

/-- One step that neither is an OK read of DATA_TS of CD[j] nor a block reset. -/
def KeepsClockDataShadow (j : CdIdx) (s t : State) : Prop :=
  s.nextOp ≠ some .sysReset ∧ ¬ (s.nextOp = some (.rdCdDataTs j) ∧ t.answeredOk)

/-- The event of a Wiegand line. -/
def evW (n : WIdx) : Line → Bool → Instr
  | .d0, level => .evWD0 n level
  | .d1, level => .evWD1 n level

/-- A pulse on a line: the times of its falling and its rising edge. -/
structure Pulse where
  line : Line
  fall : Micros
  rise : Micros
  deriving DecidableEq, Repr

/-- The step that gives a line event at a time. -/
def eventAt (i : Instr) (t : Micros) : StepInput := ⟨encode i, 0, t, []⟩

/-- The steps of a train of pulses of W[n]: each a falling then a rising event (41_wiegand.md R430). -/
def trainSteps (n : WIdx) (ps : List Pulse) : List StepInput :=
  ps.flatMap fun p => [eventAt (evW n p.line false) p.fall, eventAt (evW n p.line true) p.rise]

/-- Times do not decrease, and the premise of 60_exceptions.md R814 holds at each. -/
def TimesRise : Micros → List Micros → Prop
  | _, [] => True
  | t, u :: us => t ≤ u ∧ timeFits u = true ∧ TimesRise u us

/-- Every width in [widthMin, widthMax] (41_wiegand.md R430). -/
def WidthsFit (r : Wiegand) (ps : List Pulse) : Prop :=
  ∀ p ∈ ps, r.widthMin ≤ p.rise - p.fall ∧ p.rise - p.fall ≤ r.widthMax

/-- Every interval between consecutive times in [lo, hi] (41_wiegand.md R430, 42_clock_data.md R520). -/
def IntervalsFit (lo hi : Micros) : List Micros → Prop
  | t :: u :: us => lo ≤ u - t ∧ u - t ≤ hi ∧ IntervalsFit lo hi (u :: us)
  | _ => True

/-- Bits read as a binary number, the first most significant (41_wiegand.md R430). -/
def msbFirst (bits : List Bool) : Nat := bits.foldl (fun a b => 2 * a + b.toNat) 0

/-- The descriptor of a row at an instance: its match with INST in bits [9:4] (30_encoding.md R310). -/
def rowAt (base : Descriptor) (inst : Nat) : Descriptor := base ||| (BitVec.ofNat 32 inst <<< 4)

/-- A sampled level or data bit at a bit position of a descriptor (30_encoding.md R301). -/
def bitAt (b : Bool) (position : Nat) : Descriptor := (BitVec.ofBool b).setWidth 32 <<< position

/-- A line is held: claimed by an instance of CORE, or outside it (41_wiegand.md R408). -/
def State.lineHeld (s : State) (ln : LineId) : Prop := s.claimOf ln ≠ none ∨ ln ∈ s.extClaimed

/-- The record an operation belongs to. -/
inductive Target where
  | w (n : WIdx)
  | cd (j : CdIdx)
  | di (k : DiIdx)
  | block
  deriving DecidableEq, Repr

/-- The instance that a descriptor's UNIT and INST select (20_memory.md R201). -/
def target : Instr → Target
  | .wrWEnabled n | .rdWEnabled n | .rdWDataTs n | .rdWDataBits n | .rdWDataWord n | .rdWNoise n => .w n
  | .rdWItvlMin n | .wrWItvlMin n | .rdWItvlMax n | .wrWItvlMax n => .w n
  | .rdWWidthMin n | .wrWWidthMin n | .rdWWidthMax n | .wrWWidthMax n => .w n
  | .evWD0 n _ | .evWD1 n _ => .w n
  | .wrCdEnabled j | .rdCdEnabled j | .rdCdDataTs j | .rdCdDataBits j | .rdCdDataWord j | .rdCdNoise j => .cd j
  | .rdCdPeriodMin j | .wrCdPeriodMin j | .rdCdPeriodMax j | .wrCdPeriodMax j => .cd j
  | .evCdClk j _ => .cd j
  | .rdDiDeb k | .rdDiOnMs k | .wrDiOnMs k | .rdDiOffMs k | .wrDiOffMs k | .rdDiOnCnt k | .rdDiOffCnt k => .di k
  | .evDiIn k _ | .sysExpire k _ => .di k
  | .sysReset => .block

/-- Two states show a step the same operands and configuration. -/
def SameOperands (s t : State) : Prop :=
  t.cfg = s.cfg ∧ t.now = s.now ∧ t.wdata = s.wdata ∧ t.extClaimed = s.extClaimed

/-- An operation is a host access (30_encoding.md R300). -/
def isHostOp (i : Instr) : Prop := (kindOf (encode i)).toNat < 2

/-- An operation is a host write (30_encoding.md R300). -/
def isHostWrite (i : Instr) : Prop := (kindOf (encode i)).toNat = 1

/-- The operation writes a hold time of a filter or resets the block. -/
def reconfigures (k : DiIdx) (i : Instr) : Prop := i = .wrDiOnMs k ∨ i = .wrDiOffMs k ∨ i = .sysReset

/-- A descriptor that touches filter k (43_debounce.md R602 (c)): a line event of its input (row 35 of 30_encoding.md R310), or a host
read or write of one of its registers, offsets 0 to 4 (10_state.md R122; log 8). -/
def TouchesFilter (k : DiIdx) (d : Descriptor) : Prop :=
  ∃ low : Nat,
    (low ≤ 1 ∧ d.toNat = 0x80000800 + 16 * k.val + low) ∨
    (low ≤ 4 ∧ (d.toNat = 0x00000800 + 16 * k.val + low ∨ d.toNat = 0x40000800 + 16 * k.val + low))

/-- The time rules admit a step: the premise of 60_exceptions.md R814 holds, the first step after a reset is stamped T_RESET (log 6),
time does not decrease otherwise, it passes no pending deadline (43_debounce.md R602 (b)), and no filter that the step touches has a
timer due (R602 (c)). -/
def State.TimeAdmits (s : State) (x : StepInput) : Prop :=
  x.now.toNat + 2 ^ 42 < 2 ^ 64 ∧
  (s.fresh = true → x.now = s.cfg.tReset) ∧ (s.fresh = false → s.now ≤ x.now) ∧
  (∀ d ∈ s.deb, ∀ L deadline, d.pend = .armed L deadline → x.now ≤ deadline) ∧
  (∀ k d, s.filter k = some d → ∀ L deadline, d.pend = .armed L deadline → deadline ≤ x.now → ¬ TouchesFilter k x.desc)

/-- No step to come is stamped past the deadline of a timer that is pending now (43_debounce.md R602 (b)). -/
def State.NoDeadlinePasses (s : State) : Prop :=
  ∀ d ∈ s.deb, ∀ L deadline, d.pend = .armed L deadline → ∀ x ∈ s.inputs, x.now ≤ deadline

end Sys2Proof.Machine
end

