-- ==== Sys2Proof/Certificates/Slice0/Obligations.lean ====
section
/-! DEFINITION. The statements about CORE, each with the rules of the spec it formalises. -/

open Sys2Proof Sys2Proof.Machine

/-! ## Encoding -/

/-- Decoding the descriptor of a well-formed operation gives the operation back, with every operand at every value
(30_encoding.md R301, R310). -/
def Obligations.EncodeThenDecodeIsIdentity : Prop :=
  ∀ (nDi : Nat) (i : Instr), i.wf nDi = true → decode nDi (encode i) = .ok i

/-- A descriptor that decodes is the one descriptor of a well-formed operation: no bit of it is dropped (R301, R310). -/
def Obligations.DecodeThenEncodeIsIdentity : Prop :=
  ∀ (nDi : Nat) (d : Descriptor) (i : Instr), decode nDi d = .ok i → i.wf nDi = true ∧ encode i = d

/-- R310: a descriptor decodes exactly when it matches one of the 37 rows and its INST is below the unit's instance count. -/
def Obligations.OperationsAreTheTableRows : Prop :=
  ∀ (nDi : Nat) (d : Descriptor), (∃ i, decode nDi d = .ok i) ↔ matchesRow nDi d = true

/-- R303: bits [29:12] are 0 in every legal descriptor; a host access with one set is DECERR, an EVT or SYS is refused. -/
def Obligations.ReservedBitsAreNeverLegal : Prop :=
  ∀ (nDi : Nat) (d : Descriptor),
    ((∃ i, decode nDi d = .ok i) → d.extractLsb' 12 18 = 0) ∧
    (d.extractLsb' 12 18 ≠ 0 → (d.extractLsb' 30 2).toNat < 2 → decode nDi d = .error .decErr) ∧
    (d.extractLsb' 12 18 ≠ 0 → 2 ≤ (d.extractLsb' 30 2).toNat → decode nDi d = .error .noSuchOperation)

/-- Descriptors of 95_test_vectors.md V2.1, each with the operation it names there. A sanity statement. -/
def Obligations.VectorDescriptorsDecode : Prop :=
  decode 2 0x00000001 = .ok (.rdWDataTs 0) ∧ decode 2 0x40000416 = .ok (.wrCdPeriodMax 1) ∧
  decode 2 0x40000816 = .error .decErr ∧ decode 2 0x00000C00 = .error .decErr ∧
  decode 2 0x80000005 = .ok (.evWD1 0 true) ∧ decode 2 0x80000412 = .ok (.evCdClk 1 true) ∧
  decode 2 0x80000811 = .ok (.evDiIn 1 true) ∧ decode 2 0x80000415 = .error .noSuchOperation ∧
  decode 2 0xC0000810 = .ok (.sysExpire 1 false) ∧ decode 2 0xC0000C0F = .ok .sysReset

/-- The descriptors of the events and system steps (R310 rows 15, 16, 27, 35, 36 and 37; R305, R306). -/
def Obligations.EventDescriptorsAreTheirRows : Prop :=
  (∀ (n : WIdx) (l : Bool), encode (.evWD0 n l) = rowAt 0x80000000 n ||| bitAt l 0) ∧
  (∀ (n : WIdx) (l : Bool), encode (.evWD1 n l) = rowAt 0x80000004 n ||| bitAt l 0) ∧
  (∀ (j : CdIdx) (d : Bool), encode (.evCdClk j d) = rowAt 0x80000400 j ||| bitAt d 1) ∧
  (∀ (k : DiIdx) (l : Bool), encode (.evDiIn k l) = rowAt 0x80000800 k ||| bitAt l 0) ∧
  (∀ (k : DiIdx) (r : Bool), encode (.sysExpire k r) = rowAt 0xC0000800 k ||| bitAt r 0) ∧
  encode .sysReset = 0xC0000C0F

/-! ## Steps: which are admitted, what they run -/

/-- A step whose time is admitted and whose descriptor is an operation runs that operation, on the state that holds its WDATA, `now`
and EXT_CLAIMED and from which it has been taken (00_scope.md R13). -/
def Obligations.StepRunsTheDecodedOperation : Prop :=
  ∀ (s : State) (x : StepInput) (rest : List StepInput) (i : Instr),
    s.inputs = x :: rest → s.refusalByTime x = none → decode s.cfg.nDi x.desc = .ok i → i.wf s.cfg.nDi = true →
    step s = exec i { s with inputs := rest, now := x.now, fresh := false, wdata := x.wdata, extClaimed := x.ext }

/-- R312: an admitted host access that matches no row with its INST in range is answered DECERR with value 0 and changes nothing.
The forms the rule lists are such accesses. -/
def Obligations.UnnamedRegisterAnswersDecErr : Prop :=
  (∀ (s : State) (x : StepInput) (rest : List StepInput),
    s.inputs = x :: rest → s.refusalByTime x = none → (kindOf x.desc).toNat < 2 → matchesRow s.cfg.nDi x.desc = false →
    step s = .next { s with
      inputs := rest, now := x.now, fresh := false, wdata := x.wdata, extClaimed := x.ext
      resp := some ⟨.decErr, 0⟩ }) ∧
  (∀ (nDi : Nat) (d : Descriptor), (kindOf d).toNat < 2 →
    (reservedOf d ≠ 0 ∨ unitOf d = 3 ∨
      (unitOf d = 0 ∧ (2 ≤ (instOf d).toNat ∨ 9 ≤ (lowOf d).toNat)) ∨
      (unitOf d = 1 ∧ (2 ≤ (instOf d).toNat ∨ 7 ≤ (lowOf d).toNat)) ∨
      (unitOf d = 2 ∧ (nDi ≤ (instOf d).toNat ∨ 5 ≤ (lowOf d).toNat)) ∨
      ((kindOf d).toNat = 1 ∧ unitOf d ≠ 2 ∧ 1 ≤ (lowOf d).toNat ∧ (lowOf d).toNat ≤ 4) ∨
      ((kindOf d).toNat = 1 ∧ unitOf d = 2 ∧ ((lowOf d).toNat = 0 ∨ 3 ≤ (lowOf d).toNat))) →
    matchesRow nDi d = false)

/-- R313: an EVT or SYS that matches no row with its INST in range is refused. The forms the rule lists are such descriptors. -/
def Obligations.UnnamedEventIsRefused : Prop :=
  (∀ (s : State) (x : StepInput) (rest : List StepInput),
    s.inputs = x :: rest → s.refusalByTime x = none → 2 ≤ (kindOf x.desc).toNat → matchesRow s.cfg.nDi x.desc = false →
    step s = .refused .notAnOperation) ∧
  (∀ (nDi : Nat) (d : Descriptor), 2 ≤ (kindOf d).toNat →
    (reservedOf d ≠ 0 ∨
      ((kindOf d).toNat = 2 ∧ (unitOf d = 3 ∨
        (unitOf d = 0 ∧ ((lowOf d)[3] = true ∨ (lowOf d)[1] = true)) ∨
        (unitOf d = 1 ∧ ((lowOf d).extractLsb' 2 2 ≠ 0 ∨ (lowOf d)[0] = true)) ∨
        (unitOf d = 2 ∧ ((lowOf d).extractLsb' 2 2 ≠ 0 ∨ (lowOf d)[1] = true)))) ∨
      ((kindOf d).toNat = 3 ∧ ¬ (unitOf d = 2 ∧ (lowOf d).extractLsb' 1 3 = 0) ∧ d ≠ 0xC0000C0F)) →
    matchesRow nDi d = false)

/-- R814: a step stamped below the step before it is refused, a step that breaks the 2^42 premise is refused, and so is a first step
after reset that is not stamped T_RESET; a step that is taken breaks none of the three. The reading of the last as a refusal is the
model's (log 6). -/
def Obligations.TimeBaseIsAdmittedOrRefused : Prop :=
  ∀ (s : State) (x : StepInput) (rest : List StepInput), s.inputs = x :: rest →
    (s.fresh = false → x.now < s.now → ∃ r, step s = .refused r) ∧
    (2 ^ 64 ≤ x.now.toNat + 2 ^ 42 → step s = .refused .timeBaseExhausted) ∧
    (s.fresh = true → x.now ≠ s.cfg.tReset → ∃ r, step s = .refused r) ∧
    (∀ t, step s = .next t →
      x.now.toNat + 2 ^ 42 < 2 ^ 64 ∧ (s.fresh = false → s.now ≤ x.now) ∧ (s.fresh = true → x.now = s.cfg.tReset))

/-- R602: with a timer of filter k pending for (L, deadline): (a) an EXPIRE of k stamped with the deadline, admitted by the time
base and with no other deadline passed, is taken; (b) no step stamped after the deadline is taken; (c) no line event of k and no host
access to its registers stamped at or after it is taken; (d) an EXPIRE of a filter without a pending timer, or stamped off its
deadline, is not taken. The registers of k are offsets 0 to 4, read or written (log 8). -/
def Obligations.ExpiryRunsAtItsDeadline : Prop :=
  ∀ (s : State) (x : StepInput) (rest : List StepInput) (k : DiIdx) (d : Debounce),
    s.inputs = x :: rest → s.filter k = some d → k.val < s.cfg.nDi →
    (∀ L deadline, d.pend = .armed L deadline →
      (∀ r, x.desc = encode (.sysExpire k r) → x.now = deadline → x.now.toNat + 2 ^ 42 < 2 ^ 64 →
        (s.fresh = true → x.now = s.cfg.tReset) → (s.fresh = false → s.now ≤ x.now) →
        (∀ e ∈ s.deb, ∀ M due, e.pend = .armed M due → x.now ≤ due) → ∃ t, step s = .next t) ∧
      (deadline < x.now → ∃ r, step s = .refused r) ∧
      (∀ l, x.desc = encode (.evDiIn k l) → deadline ≤ x.now → ∃ r, step s = .refused r) ∧
      (∀ reg : BitVec 4, reg.toNat ≤ 4 → (x.desc = hrd 2 k reg ∨ x.desc = hwr 2 k reg) → deadline ≤ x.now →
        ∃ r, step s = .refused r) ∧
      (∀ r, x.desc = encode (.sysExpire k r) → x.now ≠ deadline → ∃ r', step s = .refused r')) ∧
    (∀ r, d.pend = .idle → x.desc = encode (.sysExpire k r) → ∃ r', step s = .refused r')

/-- R800: with one record for each filter, a step is refused exactly when its time is not admitted, when it is an EVT or SYS that is
no operation, or when it is an EXPIRE that is not due. Every other step completes, and so does the wait for one. Its time is admitted
exactly when R814 and R602 (b) and (c) say so; T_RESET is log 6 and the registers of (c) are log 8. -/
def Obligations.StepIsRefusedExactlyWhenNotAdmitted : Prop :=
  (∀ (s : State) (x : StepInput), s.refusalByTime x = none ↔ s.TimeAdmits x) ∧
  ∀ (s : State), s.deb.length = s.cfg.nDi → ∀ (r : Refusal),
    step s = .refused r ↔
      ∃ x rest, s.inputs = x :: rest ∧
        (s.refusalByTime x = some r ∨
          (s.refusalByTime x = none ∧ decode s.cfg.nDi x.desc = .error .noSuchOperation ∧ r = .notAnOperation) ∨
          (s.refusalByTime x = none ∧ r = .expireNotDue ∧
            ∃ k sample, decode s.cfg.nDi x.desc = .ok (.sysExpire k sample) ∧
              ∀ d, s.filter k = some d → ∀ L, d.pend ≠ .armed L x.now))

/-- R308: a host access ends with a response, of value 0 if it writes or if its status is not OK; an EVT or SYS step ends with none. -/
def Obligations.ResponsesFollowTheKindOfStep : Prop :=
  ∀ (i : Instr) (s t : State), exec i s = .next t →
    (isHostOp i → ∃ a, t.resp = some a ∧ (isHostWrite i → a.value = 0) ∧ (a.status ≠ .ok → a.value = 0)) ∧
    (¬ isHostOp i → t.resp = none)

/-- R802: a response with a status other than OK carries value 0, and its access changes no state: the step is taken from those to
come, its operands stand in the model's own fields, and that is all. A DECERR access is one of these. -/
def Obligations.NonOkAccessChangesNothing : Prop :=
  ∀ (s t : State) (x : StepInput) (rest : List StepInput) (a : Response),
    s.inputs = x :: rest → step s = .next t → t.resp = some a → a.status ≠ .ok →
    a.value = 0 ∧ t = { s with
      inputs := rest, now := x.now, fresh := false, wdata := x.wdata, extClaimed := x.ext, resp := some a }

/-- R108: no step changes the configuration, and none changes the number of debounce records. -/
def Obligations.ConfigurationIsFixedForARun : Prop :=
  ∀ (s t : State), s.deb.length = s.cfg.nDi → step s = .next t → t.cfg = s.cfg ∧ t.deb.length = s.deb.length

/-- R814: across the steps of a run `now` never decreases. -/
def Obligations.TimeNeverDecreases : Prop :=
  ∀ (s t : State), s.fresh = false → t.fresh = false → step s = .next t → s.now ≤ t.now

/-! ## Register reads and writes -/

/-- R411, R412, R414, R416, R418, R703, R704: the Wiegand reads without side effects, their descriptors, and what they answer; they
change nothing but the response. -/
def Obligations.WiegandRegisterReads : Prop :=
  ∀ (n : WIdx) (s : State),
    (encode (.rdWEnabled n) = rowAt 0x00000000 n ∧
      exec (.rdWEnabled n) s = .next { s with resp := some ⟨.ok, if (s.w n).enabled then 1 else 0⟩ }) ∧
    (encode (.rdWItvlMin n) = rowAt 0x00000005 n ∧
      exec (.rdWItvlMin n) s = .next { s with resp := some ⟨.ok, (s.w n).itvlMin⟩ }) ∧
    (encode (.rdWItvlMax n) = rowAt 0x00000006 n ∧
      exec (.rdWItvlMax n) s = .next { s with resp := some ⟨.ok, (s.w n).itvlMax⟩ }) ∧
    (encode (.rdWWidthMin n) = rowAt 0x00000007 n ∧
      exec (.rdWWidthMin n) s = .next { s with resp := some ⟨.ok, (s.w n).widthMin⟩ }) ∧
    (encode (.rdWWidthMax n) = rowAt 0x00000008 n ∧
      exec (.rdWWidthMax n) s = .next { s with resp := some ⟨.ok, (s.w n).widthMax⟩ }) ∧
    (encode (.rdWDataBits n) = rowAt 0x00000002 n ∧
      exec (.rdWDataBits n) s = .next { s with resp := some ⟨.ok, BitVec.ofNat 64 (s.w n).snapBits.toNat⟩ }) ∧
    (encode (.rdWDataWord n) = rowAt 0x00000003 n ∧
      exec (.rdWDataWord n) s = .next { s with resp := some ⟨.ok, (s.w n).snapWord⟩ })

/-- R511, R512, R514, R707, R708: the clock-data reads without side effects. -/
def Obligations.ClockDataRegisterReads : Prop :=
  ∀ (j : CdIdx) (s : State),
    (encode (.rdCdEnabled j) = rowAt 0x00000400 j ∧
      exec (.rdCdEnabled j) s = .next { s with resp := some ⟨.ok, if (s.cd j).enabled then 1 else 0⟩ }) ∧
    (encode (.rdCdPeriodMin j) = rowAt 0x00000405 j ∧
      exec (.rdCdPeriodMin j) s = .next { s with resp := some ⟨.ok, (s.cd j).periodMin⟩ }) ∧
    (encode (.rdCdPeriodMax j) = rowAt 0x00000406 j ∧
      exec (.rdCdPeriodMax j) s = .next { s with resp := some ⟨.ok, (s.cd j).periodMax⟩ }) ∧
    (encode (.rdCdDataBits j) = rowAt 0x00000402 j ∧
      exec (.rdCdDataBits j) s = .next { s with resp := some ⟨.ok, BitVec.ofNat 64 (s.cd j).snapBits.toNat⟩ }) ∧
    (encode (.rdCdDataWord j) = rowAt 0x00000403 j ∧
      exec (.rdCdDataWord j) s = .next { s with resp := some ⟨.ok, (s.cd j).snapWord⟩ })

/-- R610, R611, R613, R615, R616: the debounce reads of a filter that exists. -/
def Obligations.DebounceRegisterReads : Prop :=
  ∀ (k : DiIdx) (s : State) (d : Debounce), s.filter k = some d →
    (encode (.rdDiDeb k) = rowAt 0x00000800 k ∧
      exec (.rdDiDeb k) s = .next { s with
        resp := some ⟨.ok, match d.settled with | .off => 0 | .on => 1 | .undef => 2⟩ }) ∧
    (encode (.rdDiOnMs k) = rowAt 0x00000801 k ∧
      exec (.rdDiOnMs k) s = .next { s with resp := some ⟨.ok, BitVec.ofNat 64 d.holdOnMs.toNat⟩ }) ∧
    (encode (.rdDiOffMs k) = rowAt 0x00000802 k ∧
      exec (.rdDiOffMs k) s = .next { s with resp := some ⟨.ok, BitVec.ofNat 64 d.holdOffMs.toNat⟩ }) ∧
    (encode (.rdDiOnCnt k) = rowAt 0x00000803 k ∧
      exec (.rdDiOnCnt k) s = .next { s with resp := some ⟨.ok, d.onCnt⟩ }) ∧
    (encode (.rdDiOffCnt k) = rowAt 0x00000804 k ∧
      exec (.rdDiOffCnt k) s = .next { s with resp := some ⟨.ok, d.offCnt⟩ })

/-- R413, R415, R417, R419: a write of a Wiegand threshold stores all of WDATA, whatever the other thresholds, and nothing else. -/
def Obligations.WiegandThresholdWrites : Prop :=
  ∀ (n : WIdx) (s : State),
    (encode (.wrWItvlMin n) = rowAt 0x40000005 n ∧ ∃ t, exec (.wrWItvlMin n) s = .next t ∧
      t.w n = { s.w n with itvlMin := s.wdata } ∧ t.resp = some ⟨.ok, 0⟩ ∧ OnlyWiegand n s t) ∧
    (encode (.wrWItvlMax n) = rowAt 0x40000006 n ∧ ∃ t, exec (.wrWItvlMax n) s = .next t ∧
      t.w n = { s.w n with itvlMax := s.wdata } ∧ t.resp = some ⟨.ok, 0⟩ ∧ OnlyWiegand n s t) ∧
    (encode (.wrWWidthMin n) = rowAt 0x40000007 n ∧ ∃ t, exec (.wrWWidthMin n) s = .next t ∧
      t.w n = { s.w n with widthMin := s.wdata } ∧ t.resp = some ⟨.ok, 0⟩ ∧ OnlyWiegand n s t) ∧
    (encode (.wrWWidthMax n) = rowAt 0x40000008 n ∧ ∃ t, exec (.wrWWidthMax n) s = .next t ∧
      t.w n = { s.w n with widthMax := s.wdata } ∧ t.resp = some ⟨.ok, 0⟩ ∧ OnlyWiegand n s t)

/-- R513, R515: a write of a clock-data threshold stores all of WDATA and nothing else. -/
def Obligations.ClockDataThresholdWrites : Prop :=
  ∀ (j : CdIdx) (s : State),
    (encode (.wrCdPeriodMin j) = rowAt 0x40000405 j ∧ ∃ t, exec (.wrCdPeriodMin j) s = .next t ∧
      t.cd j = { s.cd j with periodMin := s.wdata } ∧ t.resp = some ⟨.ok, 0⟩ ∧ OnlyClockData j s t) ∧
    (encode (.wrCdPeriodMax j) = rowAt 0x40000406 j ∧ ∃ t, exec (.wrCdPeriodMax j) s = .next t ∧
      t.cd j = { s.cd j with periodMax := s.wdata } ∧ t.resp = some ⟨.ok, 0⟩ ∧ OnlyClockData j s t)

/-- R408, R410: a write of ENABLED of W[n] other than 0: INVAL above 1; OK and no change when enabled; BUSY and no change when a line
is held; else both lines are claimed, both wasLow are 0, the decoder is reset and enabled. -/
def Obligations.WiegandEnableWrite : Prop :=
  ∀ (n : WIdx) (s : State),
    encode (.wrWEnabled n) = rowAt 0x40000000 n ∧
    (s.wdata ≠ 0 → s.wdata ≠ 1 → exec (.wrWEnabled n) s = .next { s with resp := some ⟨.inval, 0⟩ }) ∧
    (s.wdata = 1 → (s.w n).enabled = true → exec (.wrWEnabled n) s = .next { s with resp := some ⟨.ok, 0⟩ }) ∧
    (s.wdata = 1 → (s.w n).enabled = false →
      (s.lineHeld (wLines s.cfg n).first ∨ s.lineHeld (wLines s.cfg n).second) →
      exec (.wrWEnabled n) s = .next { s with resp := some ⟨.busy, 0⟩ }) ∧
    (s.wdata = 1 → (s.w n).enabled = false →
      ¬ s.lineHeld (wLines s.cfg n).first → ¬ s.lineHeld (wLines s.cfg n).second →
      ∃ t, exec (.wrWEnabled n) s = .next t ∧
        t.w n = { s.w n with
          wasLowD0 := false, wasLowD1 := false, word := 0, bitCount := 0, activeLine := none, enabled := true } ∧
        t.resp = some ⟨.ok, 0⟩ ∧ ClaimsBecome (wLines s.cfg n) (some (.w n)) s t ∧ OnlyWiegandAndClaims n s t)

/-- R409, R410: a write of 0 to ENABLED of W[n] is OK; it releases both lines and clears enabled, and nothing else, and it is no
change at all when the instance is disabled. -/
def Obligations.WiegandDisableWrite : Prop :=
  ∀ (n : WIdx) (s : State), s.wdata = 0 →
    ((s.w n).enabled = false → exec (.wrWEnabled n) s = .next { s with resp := some ⟨.ok, 0⟩ }) ∧
    ((s.w n).enabled = true →
      ∃ t, exec (.wrWEnabled n) s = .next t ∧ t.w n = { s.w n with enabled := false } ∧
        t.resp = some ⟨.ok, 0⟩ ∧ ClaimsBecome (wLines s.cfg n) none s t ∧ OnlyWiegandAndClaims n s t)

/-- R503, R510: a write of ENABLED of CD[j] other than 0. -/
def Obligations.ClockDataEnableWrite : Prop :=
  ∀ (j : CdIdx) (s : State),
    encode (.wrCdEnabled j) = rowAt 0x40000400 j ∧
    (s.wdata ≠ 0 → s.wdata ≠ 1 → exec (.wrCdEnabled j) s = .next { s with resp := some ⟨.inval, 0⟩ }) ∧
    (s.wdata = 1 → (s.cd j).enabled = true → exec (.wrCdEnabled j) s = .next { s with resp := some ⟨.ok, 0⟩ }) ∧
    (s.wdata = 1 → (s.cd j).enabled = false →
      (s.lineHeld (cdLines s.cfg j).first ∨ s.lineHeld (cdLines s.cfg j).second) →
      exec (.wrCdEnabled j) s = .next { s with resp := some ⟨.busy, 0⟩ }) ∧
    (s.wdata = 1 → (s.cd j).enabled = false →
      ¬ s.lineHeld (cdLines s.cfg j).first → ¬ s.lineHeld (cdLines s.cfg j).second →
      ∃ t, exec (.wrCdEnabled j) s = .next t ∧
        t.cd j = { s.cd j with word := 0, bitCount := 0, enabled := true } ∧
        t.resp = some ⟨.ok, 0⟩ ∧ ClaimsBecome (cdLines s.cfg j) (some (.cd j)) s t ∧ OnlyClockDataAndClaims j s t)

/-- R504, R510: a write of 0 to ENABLED of CD[j] is OK; it releases both lines and clears enabled, and nothing else, and it is no
change at all when the instance is disabled. -/
def Obligations.ClockDataDisableWrite : Prop :=
  ∀ (j : CdIdx) (s : State), s.wdata = 0 →
    ((s.cd j).enabled = false → exec (.wrCdEnabled j) s = .next { s with resp := some ⟨.ok, 0⟩ }) ∧
    ((s.cd j).enabled = true →
      ∃ t, exec (.wrCdEnabled j) s = .next t ∧ t.cd j = { s.cd j with enabled := false } ∧
        t.resp = some ⟨.ok, 0⟩ ∧ ClaimsBecome (cdLines s.cfg j) none s t ∧ OnlyClockDataAndClaims j s t)

/-- R604, R612, R614: a write of a hold time: INVAL and no change at 2^32 or above; else the hold time is WDATA[31:0] and the filter
is reset, whatever value it held. -/
def Obligations.HoldTimeWrites : Prop :=
  ∀ (k : DiIdx) (s : State) (d : Debounce), s.filter k = some d →
    encode (.wrDiOnMs k) = rowAt 0x40000801 k ∧ encode (.wrDiOffMs k) = rowAt 0x40000802 k ∧
    (2 ^ 32 ≤ s.wdata.toNat →
      exec (.wrDiOnMs k) s = .next { s with resp := some ⟨.inval, 0⟩ } ∧
      exec (.wrDiOffMs k) s = .next { s with resp := some ⟨.inval, 0⟩ }) ∧
    (s.wdata.toNat < 2 ^ 32 →
      (∃ t, exec (.wrDiOnMs k) s = .next t ∧
        t.filter k = some ⟨s.wdata.extractLsb' 0 32, d.holdOffMs, .undef, 0, 0, .idle⟩ ∧
        t.resp = some ⟨.ok, 0⟩ ∧ OnlyDebounce k s t) ∧
      (∃ t, exec (.wrDiOffMs k) s = .next t ∧
        t.filter k = some ⟨d.holdOnMs, s.wdata.extractLsb' 0 32, .undef, 0, 0, .idle⟩ ∧
        t.resp = some ⟨.ok, 0⟩ ∧ OnlyDebounce k s t))

/-! ## Snapshot and noise -/

/-- R700, R702: a read of DATA_TS of W[n]: NODEV while disabled; else BUSY while `now - lastBitTs <= itvlMax`; else the capture of all
three shadow registers, answering the timestamp. -/
def Obligations.WiegandTimestampRead : Prop :=
  ∀ (n : WIdx) (s : State),
    encode (.rdWDataTs n) = rowAt 0x00000001 n ∧
    ((s.w n).enabled = false → exec (.rdWDataTs n) s = .next { s with resp := some ⟨.nodev, 0⟩ }) ∧
    ((s.w n).enabled = true → s.now - (s.w n).lastBitTs ≤ (s.w n).itvlMax →
      exec (.rdWDataTs n) s = .next { s with resp := some ⟨.busy, 0⟩ }) ∧
    ((s.w n).enabled = true → ¬ s.now - (s.w n).lastBitTs ≤ (s.w n).itvlMax →
      ∃ t, exec (.rdWDataTs n) s = .next t ∧
        t.w n = { s.w n with
          snapTs := (s.w n).lastBitTs, snapBits := (s.w n).bitCount, snapWord := (s.w n).word } ∧
        t.resp = some ⟨.ok, (s.w n).lastBitTs⟩ ∧ OnlyWiegand n s t)

/-- R701, R706: a read of DATA_TS of CD[j]. -/
def Obligations.ClockDataTimestampRead : Prop :=
  ∀ (j : CdIdx) (s : State),
    encode (.rdCdDataTs j) = rowAt 0x00000401 j ∧
    ((s.cd j).enabled = false → exec (.rdCdDataTs j) s = .next { s with resp := some ⟨.nodev, 0⟩ }) ∧
    ((s.cd j).enabled = true → s.now - (s.cd j).lastClockTs ≤ (s.cd j).periodMax →
      exec (.rdCdDataTs j) s = .next { s with resp := some ⟨.busy, 0⟩ }) ∧
    ((s.cd j).enabled = true → ¬ s.now - (s.cd j).lastClockTs ≤ (s.cd j).periodMax →
      ∃ t, exec (.rdCdDataTs j) s = .next t ∧
        t.cd j = { s.cd j with
          snapTs := (s.cd j).lastClockTs, snapBits := (s.cd j).bitCount, snapWord := (s.cd j).word } ∧
        t.resp = some ⟨.ok, (s.cd j).lastClockTs⟩ ∧ OnlyClockData j s t)

/-- R705, R709: a read of NOISE answers the code, with the numbers of R803, and clears it in the same step, in every state; a second
read with no event between answers 0. -/
def Obligations.NoiseReadsClearTheCode : Prop :=
  (∀ (n : WIdx) (s : State),
    encode (.rdWNoise n) = rowAt 0x00000004 n ∧
    ∃ t, exec (.rdWNoise n) s = .next t ∧ t.w n = { s.w n with noise := .none } ∧
      t.resp = some ⟨.ok, (match (s.w n).noise with
        | .none => 0 | .repeatedEdge => 1 | .pulseTooEarly => 2 | .concurrentLines => 3
        | .unexpectedLine => 4 | .badPulseWidth => 5 | .clockTooEarly => 6)⟩ ∧ OnlyWiegand n s t ∧
      ∃ u, exec (.rdWNoise n) t = .next u ∧ u.resp = some ⟨.ok, 0⟩) ∧
  (∀ (j : CdIdx) (s : State),
    encode (.rdCdNoise j) = rowAt 0x00000404 j ∧
    ∃ t, exec (.rdCdNoise j) s = .next t ∧ t.cd j = { s.cd j with noise := .none } ∧
      t.resp = some ⟨.ok, (match (s.cd j).noise with
        | .none => 0 | .repeatedEdge => 1 | .pulseTooEarly => 2 | .concurrentLines => 3
        | .unexpectedLine => 4 | .badPulseWidth => 5 | .clockTooEarly => 6)⟩ ∧ OnlyClockData j s t ∧
      ∃ u, exec (.rdCdNoise j) t = .next u ∧ u.resp = some ⟨.ok, 0⟩)

/-- R712: inside the busy window a read of DATA_TS answers BUSY or NODEV and changes no state. -/
def Obligations.BusyIsNeverTorn : Prop :=
  (∀ (n : WIdx) (s : State), s.now - (s.w n).lastBitTs ≤ (s.w n).itvlMax →
    exec (.rdWDataTs n) s = .next { s with resp := some ⟨.busy, 0⟩ } ∨
    exec (.rdWDataTs n) s = .next { s with resp := some ⟨.nodev, 0⟩ }) ∧
  (∀ (j : CdIdx) (s : State), s.now - (s.cd j).lastClockTs ≤ (s.cd j).periodMax →
    exec (.rdCdDataTs j) s = .next { s with resp := some ⟨.busy, 0⟩ } ∨
    exec (.rdCdDataTs j) s = .next { s with resp := some ⟨.nodev, 0⟩ })

/-- R713: no read of DATA_TS, DATA_BITS or DATA_WORD changes anything of a decoder but its shadow; a NOISE read changes only noise. -/
def Obligations.ReaderNeverMutatesDecoderState : Prop :=
  (∀ (n : WIdx) (i : Instr) (s t : State), i ∈ [.rdWDataTs n, .rdWDataBits n, .rdWDataWord n] → exec i s = .next t →
    OnlyWiegand n s t ∧ ∃ ts bits word, t.w n = { s.w n with snapTs := ts, snapBits := bits, snapWord := word }) ∧
  (∀ (j : CdIdx) (i : Instr) (s t : State), i ∈ [.rdCdDataTs j, .rdCdDataBits j, .rdCdDataWord j] →
    exec i s = .next t →
    OnlyClockData j s t ∧ ∃ ts bits word, t.cd j = { s.cd j with snapTs := ts, snapBits := bits, snapWord := word }) ∧
  (∀ (n : WIdx) (s t : State), exec (.rdWNoise n) s = .next t →
    OnlyWiegand n s t ∧ ∃ c, t.w n = { s.w n with noise := c }) ∧
  (∀ (j : CdIdx) (s t : State), exec (.rdCdNoise j) s = .next t →
    OnlyClockData j s t ∧ ∃ c, t.cd j = { s.cd j with noise := c })

/-- R710: after an OK read of DATA_TS of an instance, and until the next one of that instance or a block reset, DATA_BITS and
DATA_WORD answer the bit count and word of the step of that read, and DATA_TS answered its timestamp. -/
def Obligations.SnapshotIsNeverTorn : Prop :=
  (∀ (n : WIdx) (s s' t : State) (T : Word),
    s.nextOp = some (.rdWDataTs n) → step s = .next s' → s'.resp = some ⟨.ok, T⟩ →
    RunWith (KeepsWiegandShadow n) s' t →
    T = (s.w n).lastBitTs ∧
    exec (.rdWDataBits n) t = .next { t with resp := some ⟨.ok, BitVec.ofNat 64 (s.w n).bitCount.toNat⟩ } ∧
    exec (.rdWDataWord n) t = .next { t with resp := some ⟨.ok, (s.w n).word⟩ }) ∧
  (∀ (j : CdIdx) (s s' t : State) (T : Word),
    s.nextOp = some (.rdCdDataTs j) → step s = .next s' → s'.resp = some ⟨.ok, T⟩ →
    RunWith (KeepsClockDataShadow j) s' t →
    T = (s.cd j).lastClockTs ∧
    exec (.rdCdDataBits j) t = .next { t with resp := some ⟨.ok, BitVec.ofNat 64 (s.cd j).bitCount.toNat⟩ } ∧
    exec (.rdCdDataWord j) t = .next { t with resp := some ⟨.ok, (s.cd j).word⟩ })

/-! ## Wiegand events (`evW n .d0 l` is EV D0, `evW n .d1 l` is EV D1) -/

/-- R401: a line event of a disabled instance changes nothing. -/
def Obligations.DisabledWiegandEventIsIgnored : Prop :=
  ∀ (n : WIdx) (L : Line) (l : Bool) (s : State), (s.w n).enabled = false →
    exec (evW n L l) s = .next { s with resp := none }

/-- R402: an event whose level is the line's last inferred level records REPEATED_EDGE and changes nothing else. -/
def Obligations.RepeatedEdgeKeepsTheWord : Prop :=
  ∀ (n : WIdx) (L : Line) (l : Bool) (s : State), (s.w n).enabled = true → (l == false) = (s.w n).wasLow L →
    ∃ t, exec (evW n L l) s = .next t ∧ t.w n = { s.w n with noise := .repeatedEdge } ∧
      t.resp = none ∧ OnlyWiegand n s t

/-- R403 to R406: a falling edge. Too early with a bit held: PULSE_TOO_EARLY and a decoder reset. Else, with a bit held and the gap
above the maximum, word and bit count restart silently; then an open pulse makes it CONCURRENT_LINES with a decoder reset, and with
none open the pulse opens. wasLow is updated in every case. -/
def Obligations.FallingEdgeOfAWiegandLine : Prop :=
  ∀ (n : WIdx) (L : Line) (s : State), (s.w n).enabled = true → (s.w n).wasLow L = false →
    ∃ t, exec (evW n L false) s = .next t ∧ t.resp = none ∧ OnlyWiegand n s t ∧
      t.w n =
        (let r := (s.w n).setWasLow L true
        let diff := s.now - r.lastBitTs
        let fresh := r.bitCount ≠ 0 ∧ r.itvlMax < diff
        if r.bitCount ≠ 0 ∧ diff < r.itvlMin then
          { r with noise := .pulseTooEarly, word := 0, bitCount := 0, activeLine := none }
        else if r.activeLine ≠ none then
          { r with noise := .concurrentLines, word := 0, bitCount := 0, activeLine := none }
        else
          { r with
            word := if fresh then 0 else r.word
            bitCount := if fresh then 0 else r.bitCount
            activeLine := some L
            lastBitTs := s.now })

/-- R403, R407: a rising edge. Of a line that is not the active one: UNEXPECTED_LINE and a decoder reset. Else the line is cleared; a
full word drops the bit with no width test; a width outside its bounds is BAD_PULSE_WIDTH with a decoder reset; else the bit of the
line is shifted in. -/
def Obligations.RisingEdgeOfAWiegandLine : Prop :=
  ∀ (n : WIdx) (L : Line) (s : State), (s.w n).enabled = true → (s.w n).wasLow L = true →
    ∃ t, exec (evW n L true) s = .next t ∧ t.resp = none ∧ OnlyWiegand n s t ∧
      t.w n =
        (let r := (s.w n).setWasLow L false
        let width := s.now - r.lastBitTs
        if r.activeLine ≠ some L then
          { r with noise := .unexpectedLine, word := 0, bitCount := 0, activeLine := none }
        else if 64 ≤ r.bitCount.toNat then { r with activeLine := none }
        else if width < r.widthMin ∨ r.widthMax < width then
          { r with noise := .badPulseWidth, word := 0, bitCount := 0, activeLine := none }
        else
          { r with
            activeLine := none
            word := (r.word <<< 1) ||| (if L = .d1 then 1 else 0)
            bitCount := r.bitCount + 1 })

/-- R431: a falling edge with a bit held and `now - lastBitTs < itvlMin` records PULSE_TOO_EARLY and leaves bit count 0, word 0 and no
active line; and R432: above the maximum it records nothing, and with no pulse open it starts a word and opens its pulse. -/
def Obligations.EarlyAndLatePulsesDiffer : Prop :=
  ∀ (n : WIdx) (L : Line) (s : State), (s.w n).enabled = true → (s.w n).wasLow L = false → (s.w n).bitCount ≠ 0 →
    (s.now - (s.w n).lastBitTs < (s.w n).itvlMin →
      ∃ t, exec (evW n L false) s = .next t ∧ (t.w n).noise = .pulseTooEarly ∧ (t.w n).bitCount = 0 ∧
        (t.w n).word = 0 ∧ (t.w n).activeLine = none ∧ (t.w n).lastBitTs = (s.w n).lastBitTs) ∧
    (¬ s.now - (s.w n).lastBitTs < (s.w n).itvlMin → (s.w n).itvlMax < s.now - (s.w n).lastBitTs →
      (s.w n).activeLine = none →
      ∃ t, exec (evW n L false) s = .next t ∧ (t.w n).noise = (s.w n).noise ∧ (t.w n).bitCount = 0 ∧
        (t.w n).word = 0 ∧ (t.w n).activeLine = some L ∧ (t.w n).lastBitTs = s.now)

/-- R433: an event that records a code other than REPEATED_EDGE leaves the decoder reset: no bit, no word, no active line. -/
def Obligations.NoiseLeavesACleanDecoder : Prop :=
  ∀ (n : WIdx) (L : Line) (l : Bool) (s t : State), exec (evW n L l) s = .next t →
    (t.w n).noise ≠ (s.w n).noise → (t.w n).noise ≠ .repeatedEdge →
    (t.w n).bitCount = 0 ∧ (t.w n).word = 0 ∧ (t.w n).activeLine = none ∧
      (t.w n).lastBitTs = (s.w n).lastBitTs

/-- R434, R522: no event of a decoder disables an instance, changes a threshold, a claim or the shadow, or touches another record. -/
def Obligations.NoiseIsSoft : Prop :=
  (∀ (n : WIdx) (L : Line) (l : Bool) (s : State), ∃ t, exec (evW n L l) s = .next t ∧ OnlyWiegand n s t ∧
    (t.w n).enabled = (s.w n).enabled ∧ (t.w n).itvlMin = (s.w n).itvlMin ∧ (t.w n).itvlMax = (s.w n).itvlMax ∧
    (t.w n).widthMin = (s.w n).widthMin ∧ (t.w n).widthMax = (s.w n).widthMax ∧
    (t.w n).snapTs = (s.w n).snapTs ∧ (t.w n).snapBits = (s.w n).snapBits ∧ (t.w n).snapWord = (s.w n).snapWord) ∧
  (∀ (j : CdIdx) (d : Bool) (s : State), ∃ t, exec (.evCdClk j d) s = .next t ∧ OnlyClockData j s t ∧
    (t.cd j).enabled = (s.cd j).enabled ∧ (t.cd j).periodMin = (s.cd j).periodMin ∧
    (t.cd j).periodMax = (s.cd j).periodMax ∧ (t.cd j).snapTs = (s.cd j).snapTs ∧
    (t.cd j).snapBits = (s.cd j).snapBits ∧ (t.cd j).snapWord = (s.cd j).snapWord)

/-- R906: after a falling edge that opens a pulse, with the thresholds as they are, a read of DATA_TS is BUSY for itvlMax µs. -/
def Obligations.AcceptedPulseOpensTheBusyWindow : Prop :=
  ∀ (n : WIdx) (L : Line) (s t : State) (later : Micros),
    exec (evW n L false) s = .next t → (s.w n).activeLine ≠ some L → (t.w n).activeLine = some L →
    (s.w n).enabled = true → s.now ≤ later → later - s.now ≤ (s.w n).itvlMax →
    exec (.rdWDataTs n) { t with now := later } = .next { t with now := later, resp := some ⟨.busy, 0⟩ }

/-- R430: from an enabled instance with no bit, no active line and both lines high, a train of n pulses inside the windows leaves
min(n, 64) bits and the word b1 b2 … with b1 most significant; pulses after the 64th are dropped. The steps of the train are the next
ones, at times that do not decrease and pass no deadline (R814, R602), and the word is 0, as R130 has it where the bit count is 0. -/
def Obligations.WiegandDecodingLaw : Prop :=
  ∀ (n : WIdx) (s : State) (ps : List Pulse),
    (s.w n).enabled = true → (s.w n).bitCount = 0 → (s.w n).activeLine = none →
    (s.w n).wasLowD0 = false → (s.w n).wasLowD1 = false → (s.w n).word = 0 →
    s.fresh = false → s.inputs = trainSteps n ps → s.NoDeadlinePasses →
    TimesRise s.now (ps.flatMap fun p => [p.fall, p.rise]) →
    WidthsFit (s.w n) ps → IntervalsFit (s.w n).itvlMin (s.w n).itvlMax (ps.map Pulse.fall) →
    ∃ t, Host.Core.run Sys2Proof.core (2 * ps.length) s = .next t ∧
      (t.w n).bitCount.toNat = min ps.length 64 ∧
      (t.w n).word.toNat = msbFirst ((ps.take 64).map fun p => decide (p.line = .d1)) ∧
      (t.w n).activeLine = none ∧ (t.w n).noise = (s.w n).noise

/-! ## Clock-data events -/

/-- R502, R516: a clock edge. Disabled: nothing. Too early with a bit held: CLOCK_TOO_EARLY and a reset, the timestamp kept. Else, with
the gap above the maximum, a new word starts silently; the timestamp is `now`; a full word drops the bit; else the inverted data level
is shifted in. -/
def Obligations.ClockEdgeSamplesTheDataLine : Prop :=
  ∀ (j : CdIdx) (d : Bool) (s : State),
    ∃ t, exec (.evCdClk j d) s = .next t ∧ t.resp = none ∧ OnlyClockData j s t ∧
      t.cd j =
        (let r := s.cd j
        let diff := s.now - r.lastClockTs
        let fresh := r.bitCount ≠ 0 ∧ r.periodMax < diff
        if r.enabled = false then r
        else if r.bitCount ≠ 0 ∧ diff < r.periodMin then
          { r with noise := .clockTooEarly, word := 0, bitCount := 0 }
        else if fresh then { r with lastClockTs := s.now, word := if d then 0 else 1, bitCount := 1 }
        else if 64 ≤ r.bitCount.toNat then { r with lastClockTs := s.now }
        else
          { r with
            lastClockTs := s.now
            word := (r.word <<< 1) ||| (if d then 0 else 1)
            bitCount := r.bitCount + 1 })

/-- R520: from an enabled instance with no bit, n clock events inside the window leave min(n, 64) bits, the word of the inverted
samples with the first most significant, and the last timestamp. The events are the next steps, at times that do not decrease and pass
no deadline (R814, R602), and the word is 0, as R130 has it where the bit count is 0. -/
def Obligations.ClockDataDecodingLaw : Prop :=
  ∀ (j : CdIdx) (s : State) (es : List (Bool × Micros)),
    (s.cd j).enabled = true → (s.cd j).bitCount = 0 → (s.cd j).word = 0 →
    s.fresh = false → s.inputs = es.map (fun e => eventAt (.evCdClk j e.1) e.2) → s.NoDeadlinePasses →
    TimesRise s.now (es.map Prod.snd) → IntervalsFit (s.cd j).periodMin (s.cd j).periodMax (es.map Prod.snd) →
    ∃ t, Host.Core.run Sys2Proof.core es.length s = .next t ∧
      (t.cd j).bitCount.toNat = min es.length 64 ∧
      (t.cd j).word.toNat = msbFirst ((es.take 64).map fun e => !e.1) ∧
      (∀ e, es.getLast? = some e → (t.cd j).lastClockTs = e.2) ∧ (t.cd j).noise = (s.cd j).noise

/-! ## Debounce -/

/-- R600, R601, R617: an event of the pending timer's level changes nothing; any other arms the timer for its level with the deadline
`now` + hold time × 1000, which does not wrap under the premise of R814. -/
def Obligations.DebounceEventArmsTheTimer : Prop :=
  ∀ (k : DiIdx) (l : Bool) (s : State) (d : Debounce), s.filter k = some d → s.now.toNat + 2 ^ 42 < 2 ^ 64 →
    ∃ t e, exec (.evDiIn k l) s = .next t ∧ t.resp = none ∧ OnlyDebounce k s t ∧ t.filter k = some e ∧
      ((∃ due, d.pend = .armed l due) → e = d) ∧
      ((∀ due, d.pend ≠ .armed l due) →
        ∃ due, e = { d with pend := .armed l due } ∧
          due.toNat = s.now.toNat + (if l then d.holdOnMs else d.holdOffMs).toNat * 1000)

/-- R603, R618: the expiry of a pending timer at its deadline leaves it idle; a sample equal to the armed level commits that level, and
counts it once if it was not settled; another sample commits nothing. -/
def Obligations.ExpiryCommitsTheArmedLevel : Prop :=
  ∀ (k : DiIdx) (r L : Bool) (s : State) (d : Debounce), s.filter k = some d → d.pend = .armed L s.now →
    ∃ t, exec (.sysExpire k r) s = .next t ∧ t.resp = none ∧ OnlyDebounce k s t ∧
      t.filter k = some
        (if r = L ∧ L = true ∧ d.settled ≠ .on then { d with pend := .idle, settled := .on, onCnt := d.onCnt + 1 }
        else if r = L ∧ L = false ∧ d.settled ≠ .off then { d with pend := .idle, settled := .off, offCnt := d.offCnt + 1 }
        else { d with pend := .idle })

/-- R622: every host access to a filter completes in its own step with OK or INVAL. -/
def Obligations.DebounceAccessesNeverBlock : Prop :=
  ∀ (k : DiIdx) (i : Instr) (s : State) (d : Debounce), s.filter k = some d → target i = .di k → isHostOp i →
    ∃ t a, exec i s = .next t ∧ t.resp = some a ∧ (a.status = .ok ∨ a.status = .inval)

/-- R620: once the timer of a filter is not armed for level L and L is not settled, no run without an event of level L on its input
settles L. An event of the other level before the deadline re-arms the timer, so a glitch of L is never committed. -/
def Obligations.GlitchIsNeverSettled : Prop :=
  (∀ (k : DiIdx) (L : Bool) (s : State) (d : Debounce), s.filter k = some d →
    (∃ due, d.pend = .armed L due) →
    ∃ t e, exec (.evDiIn k (!L)) s = .next t ∧ t.filter k = some e ∧ (∀ due, e.pend ≠ .armed L due) ∧
      e.settled = d.settled ∧ e.onCnt = d.onCnt ∧ e.offCnt = d.offCnt) ∧
  (∀ (k : DiIdx) (L : Bool) (s t : State) (d e : Debounce),
    RunWith (fun s _ => s.nextOp ≠ some (.evDiIn k L)) s t → s.filter k = some d → t.filter k = some e →
    (∀ due, d.pend ≠ .armed L due) → d.settled ≠ Settled.ofLevel L →
    (∀ due, e.pend ≠ .armed L due) ∧ e.settled ≠ Settled.ofLevel L)

/-- R621: a step changes the counts of a filter only as an expiry of that filter, by one in one of them, or by zeroing both as a write
of a hold time or a block reset. -/
def Obligations.AtMostOneCountPerExpiry : Prop :=
  ∀ (k : DiIdx) (s t : State) (d e : Debounce), step s = .next t → s.filter k = some d → t.filter k = some e →
    (e.onCnt = d.onCnt ∧ e.offCnt = d.offCnt) ∨
    (∃ i, s.nextOp = some i ∧ reconfigures k i ∧ e.onCnt = 0 ∧ e.offCnt = 0) ∨
    (∃ r, s.nextOp = some (.sysExpire k r) ∧
      ((e.onCnt = d.onCnt + 1 ∧ e.offCnt = d.offCnt) ∨ (e.onCnt = d.onCnt ∧ e.offCnt = d.offCnt + 1)))

/-- R623, for every hold time: from no timer pending, an event of level 1, any further ones before the deadline, and a sample of 1 at
the deadline settle the filter to 1 and count it exactly once. The first event may be the first step after a reset, then stamped T_RESET
(R814). The steps pass no deadline of another filter (R602). -/
def Obligations.SpuriousNotificationsSettleOnce : Prop :=
  ∀ (k : DiIdx) (s : State) (d : Debounce) (start : Micros) (spurious : List Micros),
    s.filter k = some d → k.val < s.cfg.nDi → d.settled ≠ .on → d.pend = .idle → s.NoDeadlinePasses →
    (s.fresh = true → start = s.cfg.tReset) → (s.fresh = false → s.now ≤ start) →
    s.inputs = eventAt (.evDiIn k true) start ::
      (spurious.map (fun u => eventAt (.evDiIn k true) u) ++ [eventAt (.sysExpire k true) (start + holdUs d true)]) →
    TimesRise start (start :: (spurious ++ [start + holdUs d true])) →
    (∀ u ∈ spurious, u < start + holdUs d true) →
    ∃ t, Host.Core.run Sys2Proof.core (spurious.length + 2) s = .next t ∧
      t.filter k = some { d with settled := .on, onCnt := d.onCnt + 1, pend := .idle }

/-! ## Reset, invariants, the whole block -/

/-- R900: a block reset sets every record to its reset column and every line to claimed by none, in one step, whatever the state
before; the configuration stays, a new run begins at T_RESET, and there is no response. -/
def Obligations.BlockResetRestoresEveryRecord : Prop :=
  ∀ (s : State),
    ∃ t, exec .sysReset s = .next t ∧
      (∀ n, t.w n = ⟨false, false, false, none, 0, 0, 0, .none, s.cfg.wItvlMinRst, s.cfg.wItvlMaxRst,
        s.cfg.wWidthMinRst, s.cfg.wWidthMaxRst, 0, 0, 0⟩) ∧
      (∀ j, t.cd j = ⟨false, 0, 0, 0, .none, s.cfg.cdPeriodMinRst, s.cfg.cdPeriodMaxRst, 0, 0, 0⟩) ∧
      t.deb = List.replicate s.cfg.nDi ⟨s.cfg.debOnMsRst, s.cfg.debOffMsRst, .undef, 0, 0, .idle⟩ ∧
      (∀ ln, t.claimOf ln = none) ∧ t.cfg = s.cfg ∧ t.resp = none ∧ t.inputs = s.inputs ∧
      (∀ x rest, t.inputs = x :: rest → x.now ≠ s.cfg.tReset → ∃ r, step t = .refused r)

/-- R901: after power-on every decoder is disabled, every word, count, timestamp and shadow is 0, every noise code is NONE, the
thresholds and hold times are the `OPEN` parameters, every settled value is UNDEF, every timer is idle and every line is unclaimed, for
every configuration. -/
def Obligations.PowerOnState : Prop :=
  ∀ (c : Config),
    (∀ n, (State.resetFor c).w n = ⟨false, false, false, none, 0, 0, 0, .none, c.wItvlMinRst, c.wItvlMaxRst,
      c.wWidthMinRst, c.wWidthMaxRst, 0, 0, 0⟩) ∧
    (∀ j, (State.resetFor c).cd j = ⟨false, 0, 0, 0, .none, c.cdPeriodMinRst, c.cdPeriodMaxRst, 0, 0, 0⟩) ∧
    (State.resetFor c).deb = List.replicate c.nDi ⟨c.debOnMsRst, c.debOffMsRst, .undef, 0, 0, .idle⟩ ∧
    (∀ ln, (State.resetFor c).claimOf ln = none) ∧ (State.resetFor c).cfg = c

/-- The invariants hold after power-on, for every configuration in its ranges. -/
def Obligations.InvariantsHoldAtReset : Prop :=
  ∀ (c : Config) (xs : List StepInput), c.wf = true → State.Inv { State.resetFor c with inputs := xs }

/-- Every step keeps the invariants: bits in range, active line low, claims of exactly the enabled instances, counts apart by at most
one, time not past a deadline. -/
def Obligations.EveryStepKeepsTheInvariants : Prop :=
  ∀ (s t : State), s.Inv → step s = .next t → t.Inv

/-- R130 to R133, in every state that a run from power-on reaches, for every configuration and every sequence of steps. -/
def Obligations.ReachableStatesMeetTheStateRules : Prop :=
  ∀ (c : Config) (xs : List StepInput) (t : State), c.wf = true →
    RunWith (fun _ _ => True) { State.resetFor c with inputs := xs } t →
    (∀ n, (t.w n).bitCount.toNat ≤ 64 ∧
      ((t.w n).bitCount.toNat < 64 → (t.w n).word.toNat < 2 ^ (t.w n).bitCount.toNat) ∧
      (t.w n).snapBits.toNat ≤ 64) ∧
    (∀ j, (t.cd j).bitCount.toNat ≤ 64 ∧
      ((t.cd j).bitCount.toNat < 64 → (t.cd j).word.toNat < 2 ^ (t.cd j).bitCount.toNat) ∧
      (t.cd j).snapBits.toNat ≤ 64) ∧
    (∀ n L, ((t.w n).activeLine = some L → (t.w n).wasLow L = true) ∧
      ((t.w n).wasLow L = false → (t.w n).activeLine = none ∨ (t.w n).activeLine = some L.other)) ∧
    (∀ ln o, t.claimOf ln = some o ↔ (t.ownerEnabled o = true ∧ hasLine (linesOf t.cfg o) ln)) ∧
    (∀ d ∈ t.deb, d.onCnt = d.offCnt ∨ d.onCnt = d.offCnt + 1 ∨ d.offCnt = d.onCnt + 1)

/-- R817: a step of one instance reads and writes only that instance's record and its operands; a write of ENABLED of a decoder reads
and writes the claim table too. -/
def Obligations.InstancesAreIndependent : Prop :=
  (∀ (i : Instr) (n : WIdx) (s t : State), target i = .w n → exec i s = .next t →
    OnlyWiegandAndClaims n s t ∧ (i ≠ .wrWEnabled n → t.claim = s.claim) ∧
    ∀ (s' t' : State), SameOperands s s' → s'.w n = s.w n → (i = .wrWEnabled n → s'.claim = s.claim) → exec i s' = .next t' →
      t'.w n = t.w n ∧ t'.resp = t.resp ∧ (i = .wrWEnabled n → t'.claim = t.claim)) ∧
  (∀ (i : Instr) (j : CdIdx) (s t : State), target i = .cd j → exec i s = .next t →
    OnlyClockDataAndClaims j s t ∧ (i ≠ .wrCdEnabled j → t.claim = s.claim) ∧
    ∀ (s' t' : State), SameOperands s s' → s'.cd j = s.cd j → (i = .wrCdEnabled j → s'.claim = s.claim) → exec i s' = .next t' →
      t'.cd j = t.cd j ∧ t'.resp = t.resp ∧ (i = .wrCdEnabled j → t'.claim = t.claim)) ∧
  (∀ (i : Instr) (k : DiIdx) (s t : State), target i = .di k → exec i s = .next t →
    OnlyDebounce k s t ∧
    ∀ (s' t' : State), SameOperands s s' → s'.filter k = s.filter k → exec i s' = .next t' →
      t'.filter k = t.filter k ∧ t'.resp = t.resp)

/-- R805: the routing of a notification under the claim rule R132, both ways. Delivery: a notification of a line that a Wiegand
instance holds gives its event of D0 or D1 with the level, on both edges; a rising edge of the clock line that a clock-data instance
holds gives its clock event with the sampled data level, and any other notification of a line it holds gives none; one of an unclaimed
line that feeds a filter gives that filter's event with the level, and of one that feeds none, nothing (log 18: the first filter in the
list). And no event but these: it belongs to the enabled instance that holds the line, or to a filter that an unclaimed line feeds. The
two lines of an instance are distinct (R8). -/
def Obligations.RoutingFollowsTheClaimTable : Prop :=
  ∀ (s : State) (inputs : List LineId) (e : Notification), s.ClaimInv →
    (∀ n, s.claimOf e.line = some (.w n) → (wLines s.cfg n).first ≠ (wLines s.cfg n).second →
      (e.line = (wLines s.cfg n).first → s.route inputs e = some (.evWD0 n e.level)) ∧
      (e.line = (wLines s.cfg n).second → s.route inputs e = some (.evWD1 n e.level))) ∧
    (∀ j, s.claimOf e.line = some (.cd j) →
      (e.line = (cdLines s.cfg j).first → e.rising = true → s.route inputs e = some (.evCdClk j e.data)) ∧
      (¬ (e.line = (cdLines s.cfg j).first ∧ e.rising = true) → s.route inputs e = none)) ∧
    (∀ k : DiIdx, s.claimOf e.line = none → inputs[k.val]? = some e.line → (∀ m, m < k.val → inputs[m]? ≠ some e.line) →
      s.route inputs e = some (.evDiIn k e.level)) ∧
    (s.claimOf e.line = none → e.line ∉ inputs → s.route inputs e = none) ∧
    (∀ n L l, s.route inputs e = some (evW n L l) →
      (s.w n).enabled = true ∧ l = e.level ∧
        e.line = (match L with | .d0 => (wLines s.cfg n).first | .d1 => (wLines s.cfg n).second)) ∧
    (∀ j d, s.route inputs e = some (.evCdClk j d) →
      (s.cd j).enabled = true ∧ e.rising = true ∧ d = e.data ∧ e.line = (cdLines s.cfg j).first) ∧
    (∀ k l, s.route inputs e = some (.evDiIn k l) →
      s.claimOf e.line = none ∧ l = e.level ∧ inputs[k.val]? = some e.line) ∧
    (∀ i, s.route inputs e = some i → (∃ n L l, i = evW n L l) ∨ (∃ j d, i = .evCdClk j d) ∨ (∃ k l, i = .evDiIn k l))
end

