-- ==== Sys2Proof/Laws/Claims.lean ====
section
/-! SUPPORT. The claim table: reading after taking and dropping a claim, and the canonical form that both keep. -/

namespace Sys2Proof.Machine

theorem claimAt_takeClaim (c : List (LineId × Owner)) (ln : LineId) (o : Owner) (m : LineId) :
    claimAt (takeClaim c ln o) m = if m = ln then some o else claimAt c m := by
  induction c with
  | nil => simp [takeClaim, claimAt, eq_comm]
  | cons e rest ih =>
    obtain ⟨l, p⟩ := e
    unfold takeClaim
    split
    · next h => subst h; by_cases hm : m = l <;> simp [claimAt, hm, eq_comm]
    · next h =>
      split
      · by_cases hm : m = ln
        · simp [claimAt, hm]
        · simp [claimAt, hm, Ne.symm hm]
      · by_cases hl : l = m
        · subst hl; simp [claimAt, h]
        · simp [claimAt, hl, ih]

theorem claimWf_tail {e : LineId × Owner} {rest : List (LineId × Owner)} (h : claimWf (e :: rest) = true) :
    claimWf rest = true := by
  cases rest with
  | nil => rfl
  | cons e' rest =>
    simp only [claimWf, Bool.and_eq_true] at h
    exact h.2

theorem claimAt_dropClaim (c : List (LineId × Owner)) (ln m : LineId) :
    claimAt (dropClaim c ln) m = if m = ln then none else claimAt c m := by
  induction c with
  | nil => simp [dropClaim, claimAt]
  | cons e rest ih =>
    obtain ⟨l, p⟩ := e
    unfold dropClaim
    split
    · next h =>
      subst h
      by_cases hm : m = l
      · rw [ih, if_pos hm, if_pos hm]
      · rw [ih, if_neg hm, if_neg hm]; simp [claimAt, Ne.symm hm]
    · next h =>
      by_cases hl : l = m
      · subst hl; simp [claimAt, h]
      · simp [claimAt, hl, ih]

/-- A canonical table stays canonical under a first entry whose line is below every line it lists. -/
theorem claimWf_cons {l : LineId} {p : Owner} {rest : List (LineId × Owner)} (hr : claimWf rest = true)
    (hl : ∀ e ∈ rest.head?, l < e.1) : claimWf ((l, p) :: rest) = true := by
  cases rest with
  | nil => rfl
  | cons e rest =>
    simp only [claimWf, Bool.and_eq_true, decide_eq_true_eq]
    exact ⟨hl e (by simp), hr⟩

theorem claimWf_head {l : LineId} {p : Owner} {rest : List (LineId × Owner)}
    (h : claimWf ((l, p) :: rest) = true) : ∀ e ∈ rest.head?, l < e.1 := by
  cases rest with
  | nil => simp
  | cons e rest =>
    simp only [claimWf, Bool.and_eq_true, decide_eq_true_eq] at h
    simpa using h.1

/-- In a canonical table every line after the first entry is above its line. -/
theorem claimWf_above {l : LineId} {p : Owner} {rest : List (LineId × Owner)}
    (h : claimWf ((l, p) :: rest) = true) : ∀ e ∈ rest, l < e.1 := by
  induction rest generalizing l p with
  | nil => simp
  | cons e rest ih =>
    have hl := claimWf_head h e (by simp)
    intro e' he'
    rcases List.mem_cons.mp he' with rfl | he'
    · exact hl
    · exact Nat.lt_trans hl (ih (claimWf_tail h) e' he')

theorem mem_of_mem_dropClaim {c : List (LineId × Owner)} {ln : LineId} {e : LineId × Owner} (h : e ∈ dropClaim c ln) :
    e ∈ c := by
  induction c with
  | nil => exact h
  | cons e' rest ih =>
    obtain ⟨l, p⟩ := e'
    unfold dropClaim at h
    split at h
    · exact List.mem_cons_of_mem _ (ih h)
    · rcases List.mem_cons.mp h with rfl | h
      · exact List.mem_cons_self
      · exact List.mem_cons_of_mem _ (ih h)

theorem claimWf_takeClaim {c : List (LineId × Owner)} (hc : claimWf c = true) (ln : LineId) (o : Owner) :
    claimWf (takeClaim c ln o) = true := by
  induction c with
  | nil => rfl
  | cons e rest ih =>
    obtain ⟨l, p⟩ := e
    unfold takeClaim
    split
    · next h => subst h; exact claimWf_cons (claimWf_tail hc) (claimWf_head hc)
    · next h =>
      split
      · next h' => exact claimWf_cons hc (by simpa using h')
      · next h' =>
        refine claimWf_cons (ih (claimWf_tail hc)) ?_
        have hlt : l < ln := Nat.lt_of_le_of_ne (Nat.le_of_not_lt h') h
        cases rest with
        | nil => simpa [takeClaim] using hlt
        | cons e' rest =>
          have hh := claimWf_head hc e' (by simp)
          unfold takeClaim
          split
          · simpa using hlt
          · split <;> simpa using by assumption

theorem claimWf_dropClaim {c : List (LineId × Owner)} (hc : claimWf c = true) (ln : LineId) :
    claimWf (dropClaim c ln) = true := by
  induction c with
  | nil => rfl
  | cons e rest ih =>
    obtain ⟨l, p⟩ := e
    unfold dropClaim
    split
    · exact ih (claimWf_tail hc)
    · exact claimWf_cons (ih (claimWf_tail hc)) fun e he =>
        claimWf_above hc e (mem_of_mem_dropClaim (List.mem_of_head? he))

/-- Taking both lines of a pair: each reads as the owner, every other line as before. -/
theorem claimAt_claimPair (s : State) (p : LinePair) (o : Owner) (ln : LineId) :
    claimAt (s.claimPair p o).claim ln
      = if ln = p.first ∨ ln = p.second then some o else claimAt s.claim ln := by
  simp only [State.claimPair, claimAt_takeClaim]
  by_cases h1 : ln = p.first <;> by_cases h2 : ln = p.second <;> simp [h1, h2]

/-- Releasing both lines of a pair: each reads as claimed by none, every other line as before. -/
theorem claimAt_releasePair (s : State) (p : LinePair) (ln : LineId) :
    claimAt (s.releasePair p).claim ln
      = if ln = p.first ∨ ln = p.second then none else claimAt s.claim ln := by
  simp only [State.releasePair, claimAt_dropClaim]
  by_cases h1 : ln = p.first <;> by_cases h2 : ln = p.second <;> simp [h1, h2]

theorem claimWf_claimPair {s : State} (hs : claimWf s.claim = true) (p : LinePair) (o : Owner) :
    claimWf (s.claimPair p o).claim = true := claimWf_takeClaim (claimWf_takeClaim hs _ _) _ _

theorem claimWf_releasePair {s : State} (hs : claimWf s.claim = true) (p : LinePair) :
    claimWf (s.releasePair p).claim = true := claimWf_dropClaim (claimWf_dropClaim hs _) _

/-- A line that is not held is claimed by none. -/
theorem claimAt_of_not_held {s : State} {ln : LineId} (h : s.held ln = false) : claimAt s.claim ln = none := by
  simp only [State.held, Bool.or_eq_false_iff] at h
  simpa using h.1

end Sys2Proof.Machine
end

