-- ==== Sys2Proof/Laws/ClockData.lean ====
section
/-! SUPPORT. What a clock edge can do, said once (42_clock_data.md R502), and what it never touches. -/

namespace Sys2Proof.Machine

/-- After the timeout test the accumulated bits are those before it, or none. -/
theorem clockDataTimeout_bits (now : Micros) (r : ClockData) :
    ((clockDataTimeout now r).word = r.word ∧ (clockDataTimeout now r).bitCount = r.bitCount) ∨
      ((clockDataTimeout now r).word = 0 ∧ (clockDataTimeout now r).bitCount = 0) := by
  unfold clockDataTimeout; split <;> simp

/-- The fields that no clock edge changes (R522): enable, thresholds and shadow. -/
def ClockData.SameSettings (r q : ClockData) : Prop :=
  q.enabled = r.enabled ∧ q.periodMin = r.periodMin ∧ q.periodMax = r.periodMax ∧ q.snapTs = r.snapTs ∧
    q.snapBits = r.snapBits ∧ q.snapWord = r.snapWord

theorem clockDataTimeout_settings (now : Micros) (r : ClockData) : r.SameSettings (clockDataTimeout now r) := by
  unfold clockDataTimeout; split <;> exact ⟨rfl, rfl, rfl, rfl, rfl, rfl⟩

/-- Everything a clock edge can do, in the order the rule tests it. -/
theorem clockEdge_cases (data : Bool) (now : Micros) (r : ClockData) :
    (r.enabled = false ∧ clockEdge data now r = r) ∨
    (r.enabled = true ∧ clockTooEarly now r = true ∧
      clockEdge data now r = clockDataReset { r with noise := .clockTooEarly }) ∨
    (r.enabled = true ∧ clockTooEarly now r = false ∧ 64 ≤ (clockDataTimeout now r).bitCount.toNat ∧
      clockEdge data now r = { clockDataTimeout now r with lastClockTs := now }) ∨
    (r.enabled = true ∧ clockTooEarly now r = false ∧ ¬ 64 ≤ (clockDataTimeout now r).bitCount.toNat ∧
      clockEdge data now r
        = { clockDataTimeout now r with
            lastClockTs := now
            word := shiftIn (clockDataTimeout now r).word (clockBit data)
            bitCount := (clockDataTimeout now r).bitCount + 1 }) := by
  cases he : r.enabled with
  | false => left; simp [clockEdge, he]
  | true =>
    right
    cases hc : clockTooEarly now r with
    | true => left; simp [clockEdge, he, hc]
    | false =>
      right
      by_cases hf : 64 ≤ (clockDataTimeout now r).bitCount.toNat
      · left; simp [clockEdge, he, hc, sampleData, hf]
      · right; simp [clockEdge, he, hc, sampleData, hf]

/-- No clock edge disables the instance, changes a threshold or the shadow (R522). -/
theorem clockEdge_settings (data : Bool) (now : Micros) (r : ClockData) : r.SameSettings (clockEdge data now r) := by
  have ht := clockDataTimeout_settings now r
  rcases clockEdge_cases data now r with ⟨-, h⟩ | ⟨-, -, h⟩ | ⟨-, -, -, h⟩ | ⟨-, -, -, h⟩ <;> rw [h]
  · exact ⟨rfl, rfl, rfl, rfl, rfl, rfl⟩
  · exact ⟨rfl, rfl, rfl, rfl, rfl, rfl⟩
  · exact ht
  · exact ht

end Sys2Proof.Machine
end

