-- ==== Sys2Proof/Laws/Debounce.lean ====
section
/-! SUPPORT. What an input event and an expiry can do to a filter, said once (43_debounce.md R601, R603). -/

namespace Sys2Proof.Machine

/-- An event changes nothing, or arms the timer for its level at its hold time from now (R601). -/
theorem debounceEvent_cases (level : Bool) (now : Micros) (d : Debounce) :
    ((∃ deadline, d.pend = .armed level deadline) ∧ debounceEvent level now d = d) ∨
    ((∀ deadline, d.pend ≠ .armed level deadline) ∧
      debounceEvent level now d = { d with pend := .armed level (now + holdUs d level) }) := by
  unfold debounceEvent armedFor
  cases h : d.pend with
  | idle => right; simp
  | armed l deadline =>
    by_cases hl : l = level
    · left; simp [hl]
    · right; simp [hl]

/-- An expiry leaves the timer idle, and commits at most one transition (R603). -/
theorem debounceExpire_cases (level sample : Bool) (d : Debounce) :
    ((sample ≠ level ∨ d.settled = Settled.ofLevel level) ∧
      debounceExpire level sample d = { d with pend := .idle }) ∨
    (sample = level ∧ level = true ∧ d.settled ≠ .on ∧
      debounceExpire level sample d = { d with pend := .idle, settled := .on, onCnt := d.onCnt + 1 }) ∨
    (sample = level ∧ level = false ∧ d.settled ≠ .off ∧
      debounceExpire level sample d = { d with pend := .idle, settled := .off, offCnt := d.offCnt + 1 }) := by
  unfold debounceExpire commitLevel Settled.ofLevel
  by_cases hs : sample = level
  · subst hs
    cases sample <;> by_cases hd : d.settled = .off <;> by_cases hn : d.settled = .on <;> simp_all
  · left; simp [hs]

/-- A hold time in µs is below 2^42 (R600). -/
theorem holdUs_lt (d : Debounce) (level : Bool) : (holdUs d level).toNat < 2 ^ 42 := by
  have h (m : Millis) : ((zext64 m) * 1000 : Word).toNat < 2 ^ 42 := by
    have := m.isLt
    have hk : (1000 : Word).toNat = 1000 := rfl
    simp only [zext64, BitVec.toNat_mul, BitVec.toNat_setWidth, hk]
    rw [Nat.mod_eq_of_lt (a := m.toNat) (by omega), Nat.mod_eq_of_lt (by omega)]
    omega
  unfold holdUs
  split <;> exact h _

/-- Under the premise of 60_exceptions.md R814 the deadline of an armed timer does not wrap. -/
theorem toNat_deadline {now : Micros} (h : timeFits now = true) (d : Debounce) (level : Bool) :
    (now + holdUs d level).toNat = now.toNat + (holdUs d level).toNat := by
  have := holdUs_lt d level
  simp only [timeFits, decide_eq_true_eq] at h
  rw [BitVec.toNat_add]
  omega

end Sys2Proof.Machine
end

