-- ==== Sys2Proof/Laws/Encoding.lean ====
section
/-! SUPPORT. The fields of a descriptor: each read back from the descriptor made of them, and a legal descriptor made again of its
fields (30_encoding.md R301, R303). -/

namespace Sys2Proof

theorem toNat_kindOf (d : Descriptor) : (kindOf d).toNat = d.toNat / 2 ^ 30 := by
  have := d.isLt
  simp only [kindOf, BitVec.extractLsb'_toNat, Nat.shiftRight_eq_div_pow]
  omega

theorem toNat_reservedOf (d : Descriptor) : (reservedOf d).toNat = d.toNat / 2 ^ 12 % 2 ^ 18 := by
  simp only [reservedOf, BitVec.extractLsb'_toNat, Nat.shiftRight_eq_div_pow]

theorem toNat_unitOf (d : Descriptor) : (unitOf d).toNat = d.toNat / 2 ^ 10 % 2 ^ 2 := by
  simp only [unitOf, BitVec.extractLsb'_toNat, Nat.shiftRight_eq_div_pow]

theorem toNat_instOf (d : Descriptor) : (instOf d).toNat = d.toNat / 2 ^ 4 % 2 ^ 6 := by
  simp only [instOf, BitVec.extractLsb'_toNat, Nat.shiftRight_eq_div_pow]

theorem toNat_lowOf (d : Descriptor) : (lowOf d).toNat = d.toNat % 2 ^ 4 := by
  simp only [lowOf, BitVec.extractLsb'_toNat, Nat.shiftRight_eq_div_pow, Nat.pow_zero, Nat.div_one]

/-- An append is a sum: its two parts do not overlap. -/
theorem toNat_append_add {v w : Nat} (x : BitVec v) (y : BitVec w) : (x ++ y).toNat = x.toNat * 2 ^ w + y.toNat := by
  rw [BitVec.toNat_append, Nat.shiftLeft_eq, Nat.mul_comm, Nat.two_pow_add_eq_or_of_lt y.isLt]

theorem toNat_descriptor (kind unit : BitVec 2) (inst : BitVec 6) (low : BitVec 4) :
    (descriptor kind unit inst low).toNat = kind.toNat * 2 ^ 30 + unit.toNat * 2 ^ 10 + inst.toNat * 2 ^ 4 + low.toNat := by
  simp only [descriptor, toNat_append_add, BitVec.toNat_ofNat]
  omega

@[simp] theorem kindOf_descriptor (kind unit : BitVec 2) (inst : BitVec 6) (low : BitVec 4) :
    kindOf (descriptor kind unit inst low) = kind := by
  apply BitVec.eq_of_toNat_eq
  have := unit.isLt; have := inst.isLt; have := low.isLt
  rw [toNat_kindOf, toNat_descriptor]
  omega

@[simp] theorem reservedOf_descriptor (kind unit : BitVec 2) (inst : BitVec 6) (low : BitVec 4) :
    reservedOf (descriptor kind unit inst low) = 0 := by
  apply BitVec.eq_of_toNat_eq
  have := unit.isLt; have := inst.isLt; have := low.isLt
  rw [toNat_reservedOf, toNat_descriptor, show (0 : BitVec 18).toNat = 0 from rfl]
  omega

@[simp] theorem unitOf_descriptor (kind unit : BitVec 2) (inst : BitVec 6) (low : BitVec 4) :
    unitOf (descriptor kind unit inst low) = unit := by
  apply BitVec.eq_of_toNat_eq
  have := unit.isLt; have := inst.isLt; have := low.isLt
  rw [toNat_unitOf, toNat_descriptor]
  omega

@[simp] theorem instOf_descriptor (kind unit : BitVec 2) (inst : BitVec 6) (low : BitVec 4) :
    instOf (descriptor kind unit inst low) = inst := by
  apply BitVec.eq_of_toNat_eq
  have := inst.isLt; have := low.isLt
  rw [toNat_instOf, toNat_descriptor]
  omega

@[simp] theorem lowOf_descriptor (kind unit : BitVec 2) (inst : BitVec 6) (low : BitVec 4) :
    lowOf (descriptor kind unit inst low) = low := by
  apply BitVec.eq_of_toNat_eq
  have := low.isLt
  rw [toNat_lowOf, toNat_descriptor]
  omega

/-- A descriptor with no reserved bit set is the descriptor of its fields. -/
theorem descriptor_fields {d : Descriptor} (h : reservedOf d = 0) :
    descriptor (kindOf d) (unitOf d) (instOf d) (lowOf d) = d := by
  apply BitVec.eq_of_toNat_eq
  have hr := congrArg BitVec.toNat h
  rw [toNat_reservedOf, show (0 : BitVec 18).toNat = 0 from rfl] at hr
  rw [toNat_descriptor, toNat_kindOf, toNat_unitOf, toNat_instOf, toNat_lowOf]
  omega

@[simp] theorem pairIdx_ofNat (n : Fin 2) : pairIdx (BitVec.ofNat 6 n.val) = some n := by
  revert n; decide

theorem pairIdx_eq_some {inst : BitVec 6} {n : Fin 2} (h : pairIdx inst = some n) : inst = BitVec.ofNat 6 n.val := by
  unfold pairIdx at h
  split at h
  · cases h; simp
  · cases h

theorem filterIdx_ofNat {nDi : Nat} {k : DiIdx} (h : k.val < nDi) : filterIdx nDi (BitVec.ofNat 6 k.val) = some k := by
  have hk : (BitVec.ofNat 6 k.val).toNat = k.val := by
    rw [BitVec.toNat_ofNat]
    exact Nat.mod_eq_of_lt k.isLt
  unfold filterIdx
  rw [if_pos (by omega)]
  exact congrArg some (Fin.ext hk)

theorem filterIdx_eq_some {nDi : Nat} {inst : BitVec 6} {k : DiIdx} (h : filterIdx nDi inst = some k) :
    inst = BitVec.ofNat 6 k.val ∧ k.val < nDi := by
  unfold filterIdx at h
  split at h
  · next hlt => cases h; exact ⟨by simp, hlt⟩
  · cases h

/-- The descriptors that touch a filter: no reserved bit set, UNIT 2, the filter's number in INST, and a host access to one of the
offsets 0 to 4 or a line event at PORT 0 with DATA 0 (43_debounce.md R602 (c); log 8). -/
theorem touchedFilter_eq_some_iff {d : Descriptor} {k : DiIdx} :
    touchedFilter d = some k ↔
      reservedOf d = 0 ∧ (unitOf d).toNat = 2 ∧ (instOf d).toNat = k.val ∧
        (((kindOf d).toNat ≤ 1 ∧ (lowOf d).toNat ≤ 4) ∨ ((kindOf d).toNat = 2 ∧ (lowOf d).toNat ≤ 1)) := by
  have hk : (some (instOf d).toFin = some k) ↔ (instOf d).toNat = k.val := by
    rw [Option.some.injEq, Fin.ext_iff, BitVec.val_toFin]
  unfold touchedFilter
  split
  · next h =>
    obtain ⟨hr, hu⟩ := h
    split
    · next h0 => by_cases hl : (lowOf d).toNat ≤ 4 <;> simp [hl, hk, h0, hr, hu]
    · next h1 => by_cases hl : (lowOf d).toNat ≤ 4 <;> simp [hl, hk, h1, hr, hu]
    · next h2 => by_cases hl : (lowOf d).toNat ≤ 1 <;> simp [hl, hk, h2, hr, hu]
    · next h0 h1 h2 =>
      simp only [reduceCtorEq, false_iff]
      rintro ⟨-, -, -, ⟨h, -⟩ | ⟨h, -⟩⟩
      · have : (kindOf d).toNat ≠ 0 := h0
        have : (kindOf d).toNat ≠ 1 := h1
        omega
      · exact h2 h
  · next h =>
    simp only [reduceCtorEq, false_iff]
    exact fun h' => h ⟨h'.1, h'.2.1⟩

end Sys2Proof
end

