-- ==== Sys2Proof/Laws/State.lean ====
section
/-! SUPPORT. One lemma per field per update of the state (written once, so that no proof unfolds a record update). -/

namespace Sys2Proof.Machine

@[simp] theorem setW_cfg (s : State) (n : WIdx) (r : Wiegand) :
    (s.setW n r).cfg = s.cfg := by
  match n with
  | 0 => rfl
  | 1 => rfl

@[simp] theorem setW_deb (s : State) (n : WIdx) (r : Wiegand) :
    (s.setW n r).deb = s.deb := by
  match n with
  | 0 => rfl
  | 1 => rfl

@[simp] theorem setW_claim (s : State) (n : WIdx) (r : Wiegand) :
    (s.setW n r).claim = s.claim := by
  match n with
  | 0 => rfl
  | 1 => rfl

@[simp] theorem setW_now (s : State) (n : WIdx) (r : Wiegand) :
    (s.setW n r).now = s.now := by
  match n with
  | 0 => rfl
  | 1 => rfl

@[simp] theorem setW_fresh (s : State) (n : WIdx) (r : Wiegand) :
    (s.setW n r).fresh = s.fresh := by
  match n with
  | 0 => rfl
  | 1 => rfl

@[simp] theorem setW_wdata (s : State) (n : WIdx) (r : Wiegand) :
    (s.setW n r).wdata = s.wdata := by
  match n with
  | 0 => rfl
  | 1 => rfl

@[simp] theorem setW_extClaimed (s : State) (n : WIdx) (r : Wiegand) :
    (s.setW n r).extClaimed = s.extClaimed := by
  match n with
  | 0 => rfl
  | 1 => rfl

@[simp] theorem setW_resp (s : State) (n : WIdx) (r : Wiegand) :
    (s.setW n r).resp = s.resp := by
  match n with
  | 0 => rfl
  | 1 => rfl

@[simp] theorem setW_inputs (s : State) (n : WIdx) (r : Wiegand) :
    (s.setW n r).inputs = s.inputs := by
  match n with
  | 0 => rfl
  | 1 => rfl

@[simp] theorem setW_cd (s : State) (n : WIdx) (r : Wiegand) (m : CdIdx) :
    (s.setW n r).cd m = s.cd m := by
  match n with
  | 0 => rfl
  | 1 => rfl

@[simp] theorem setW_filter (s : State) (n : WIdx) (r : Wiegand) (m : DiIdx) :
    (s.setW n r).filter m = s.filter m := by
  match n with
  | 0 => rfl
  | 1 => rfl

@[simp] theorem setCd_cfg (s : State) (j : CdIdx) (r : ClockData) :
    (s.setCd j r).cfg = s.cfg := by
  match j with
  | 0 => rfl
  | 1 => rfl

@[simp] theorem setCd_deb (s : State) (j : CdIdx) (r : ClockData) :
    (s.setCd j r).deb = s.deb := by
  match j with
  | 0 => rfl
  | 1 => rfl

@[simp] theorem setCd_claim (s : State) (j : CdIdx) (r : ClockData) :
    (s.setCd j r).claim = s.claim := by
  match j with
  | 0 => rfl
  | 1 => rfl

@[simp] theorem setCd_now (s : State) (j : CdIdx) (r : ClockData) :
    (s.setCd j r).now = s.now := by
  match j with
  | 0 => rfl
  | 1 => rfl

@[simp] theorem setCd_fresh (s : State) (j : CdIdx) (r : ClockData) :
    (s.setCd j r).fresh = s.fresh := by
  match j with
  | 0 => rfl
  | 1 => rfl

@[simp] theorem setCd_wdata (s : State) (j : CdIdx) (r : ClockData) :
    (s.setCd j r).wdata = s.wdata := by
  match j with
  | 0 => rfl
  | 1 => rfl

@[simp] theorem setCd_extClaimed (s : State) (j : CdIdx) (r : ClockData) :
    (s.setCd j r).extClaimed = s.extClaimed := by
  match j with
  | 0 => rfl
  | 1 => rfl

@[simp] theorem setCd_resp (s : State) (j : CdIdx) (r : ClockData) :
    (s.setCd j r).resp = s.resp := by
  match j with
  | 0 => rfl
  | 1 => rfl

@[simp] theorem setCd_inputs (s : State) (j : CdIdx) (r : ClockData) :
    (s.setCd j r).inputs = s.inputs := by
  match j with
  | 0 => rfl
  | 1 => rfl

@[simp] theorem setCd_w (s : State) (j : CdIdx) (r : ClockData) (m : WIdx) :
    (s.setCd j r).w m = s.w m := by
  match j with
  | 0 => rfl
  | 1 => rfl

@[simp] theorem setCd_filter (s : State) (j : CdIdx) (r : ClockData) (m : DiIdx) :
    (s.setCd j r).filter m = s.filter m := by
  match j with
  | 0 => rfl
  | 1 => rfl

@[simp] theorem setFilter_cfg (s : State) (k : DiIdx) (d : Debounce) :
    (s.setFilter k d).cfg = s.cfg := rfl

@[simp] theorem setFilter_deb (s : State) (k : DiIdx) (d : Debounce) :
    (s.setFilter k d).deb = s.deb.set k.val d := rfl

@[simp] theorem setFilter_claim (s : State) (k : DiIdx) (d : Debounce) :
    (s.setFilter k d).claim = s.claim := rfl

@[simp] theorem setFilter_now (s : State) (k : DiIdx) (d : Debounce) :
    (s.setFilter k d).now = s.now := rfl

@[simp] theorem setFilter_fresh (s : State) (k : DiIdx) (d : Debounce) :
    (s.setFilter k d).fresh = s.fresh := rfl

@[simp] theorem setFilter_wdata (s : State) (k : DiIdx) (d : Debounce) :
    (s.setFilter k d).wdata = s.wdata := rfl

@[simp] theorem setFilter_extClaimed (s : State) (k : DiIdx) (d : Debounce) :
    (s.setFilter k d).extClaimed = s.extClaimed := rfl

@[simp] theorem setFilter_resp (s : State) (k : DiIdx) (d : Debounce) :
    (s.setFilter k d).resp = s.resp := rfl

@[simp] theorem setFilter_inputs (s : State) (k : DiIdx) (d : Debounce) :
    (s.setFilter k d).inputs = s.inputs := rfl

@[simp] theorem setFilter_w (s : State) (k : DiIdx) (d : Debounce) (m : WIdx) :
    (s.setFilter k d).w m = s.w m := rfl

@[simp] theorem setFilter_cd (s : State) (k : DiIdx) (d : Debounce) (m : CdIdx) :
    (s.setFilter k d).cd m = s.cd m := rfl

@[simp] theorem claimPair_cfg (s : State) (p : LinePair) (o : Owner) :
    (s.claimPair p o).cfg = s.cfg := rfl

@[simp] theorem claimPair_deb (s : State) (p : LinePair) (o : Owner) :
    (s.claimPair p o).deb = s.deb := rfl

@[simp] theorem claimPair_claim (s : State) (p : LinePair) (o : Owner) :
    (s.claimPair p o).claim = takeClaim (takeClaim s.claim p.first o) p.second o := rfl

@[simp] theorem claimPair_now (s : State) (p : LinePair) (o : Owner) :
    (s.claimPair p o).now = s.now := rfl

@[simp] theorem claimPair_fresh (s : State) (p : LinePair) (o : Owner) :
    (s.claimPair p o).fresh = s.fresh := rfl

@[simp] theorem claimPair_wdata (s : State) (p : LinePair) (o : Owner) :
    (s.claimPair p o).wdata = s.wdata := rfl

@[simp] theorem claimPair_extClaimed (s : State) (p : LinePair) (o : Owner) :
    (s.claimPair p o).extClaimed = s.extClaimed := rfl

@[simp] theorem claimPair_resp (s : State) (p : LinePair) (o : Owner) :
    (s.claimPair p o).resp = s.resp := rfl

@[simp] theorem claimPair_inputs (s : State) (p : LinePair) (o : Owner) :
    (s.claimPair p o).inputs = s.inputs := rfl

@[simp] theorem claimPair_w (s : State) (p : LinePair) (o : Owner) (m : WIdx) :
    (s.claimPair p o).w m = s.w m := rfl

@[simp] theorem claimPair_cd (s : State) (p : LinePair) (o : Owner) (m : CdIdx) :
    (s.claimPair p o).cd m = s.cd m := rfl

@[simp] theorem claimPair_filter (s : State) (p : LinePair) (o : Owner) (m : DiIdx) :
    (s.claimPair p o).filter m = s.filter m := rfl

@[simp] theorem releasePair_cfg (s : State) (p : LinePair) :
    (s.releasePair p).cfg = s.cfg := rfl

@[simp] theorem releasePair_deb (s : State) (p : LinePair) :
    (s.releasePair p).deb = s.deb := rfl

@[simp] theorem releasePair_claim (s : State) (p : LinePair) :
    (s.releasePair p).claim = dropClaim (dropClaim s.claim p.first) p.second := rfl

@[simp] theorem releasePair_now (s : State) (p : LinePair) :
    (s.releasePair p).now = s.now := rfl

@[simp] theorem releasePair_fresh (s : State) (p : LinePair) :
    (s.releasePair p).fresh = s.fresh := rfl

@[simp] theorem releasePair_wdata (s : State) (p : LinePair) :
    (s.releasePair p).wdata = s.wdata := rfl

@[simp] theorem releasePair_extClaimed (s : State) (p : LinePair) :
    (s.releasePair p).extClaimed = s.extClaimed := rfl

@[simp] theorem releasePair_resp (s : State) (p : LinePair) :
    (s.releasePair p).resp = s.resp := rfl

@[simp] theorem releasePair_inputs (s : State) (p : LinePair) :
    (s.releasePair p).inputs = s.inputs := rfl

@[simp] theorem releasePair_w (s : State) (p : LinePair) (m : WIdx) :
    (s.releasePair p).w m = s.w m := rfl

@[simp] theorem releasePair_cd (s : State) (p : LinePair) (m : CdIdx) :
    (s.releasePair p).cd m = s.cd m := rfl

@[simp] theorem releasePair_filter (s : State) (p : LinePair) (m : DiIdx) :
    (s.releasePair p).filter m = s.filter m := rfl

@[simp] theorem respond_cfg (s : State) (st : Status) (v : Word) :
    (s.respond st v).cfg = s.cfg := rfl

@[simp] theorem respond_deb (s : State) (st : Status) (v : Word) :
    (s.respond st v).deb = s.deb := rfl

@[simp] theorem respond_claim (s : State) (st : Status) (v : Word) :
    (s.respond st v).claim = s.claim := rfl

@[simp] theorem respond_now (s : State) (st : Status) (v : Word) :
    (s.respond st v).now = s.now := rfl

@[simp] theorem respond_fresh (s : State) (st : Status) (v : Word) :
    (s.respond st v).fresh = s.fresh := rfl

@[simp] theorem respond_wdata (s : State) (st : Status) (v : Word) :
    (s.respond st v).wdata = s.wdata := rfl

@[simp] theorem respond_extClaimed (s : State) (st : Status) (v : Word) :
    (s.respond st v).extClaimed = s.extClaimed := rfl

@[simp] theorem respond_resp (s : State) (st : Status) (v : Word) :
    (s.respond st v).resp = some ⟨st, match st with | .ok => v | _ => 0⟩ := rfl

@[simp] theorem respond_inputs (s : State) (st : Status) (v : Word) :
    (s.respond st v).inputs = s.inputs := rfl

@[simp] theorem respond_w (s : State) (st : Status) (v : Word) (m : WIdx) :
    (s.respond st v).w m = s.w m := rfl

@[simp] theorem respond_cd (s : State) (st : Status) (v : Word) (m : CdIdx) :
    (s.respond st v).cd m = s.cd m := rfl

@[simp] theorem respond_filter (s : State) (st : Status) (v : Word) (m : DiIdx) :
    (s.respond st v).filter m = s.filter m := rfl

@[simp] theorem silent_cfg (s : State) :
    (s.silent).cfg = s.cfg := rfl

@[simp] theorem silent_deb (s : State) :
    (s.silent).deb = s.deb := rfl

@[simp] theorem silent_claim (s : State) :
    (s.silent).claim = s.claim := rfl

@[simp] theorem silent_now (s : State) :
    (s.silent).now = s.now := rfl

@[simp] theorem silent_fresh (s : State) :
    (s.silent).fresh = s.fresh := rfl

@[simp] theorem silent_wdata (s : State) :
    (s.silent).wdata = s.wdata := rfl

@[simp] theorem silent_extClaimed (s : State) :
    (s.silent).extClaimed = s.extClaimed := rfl

@[simp] theorem silent_resp (s : State) :
    (s.silent).resp = none := rfl

@[simp] theorem silent_inputs (s : State) :
    (s.silent).inputs = s.inputs := rfl

@[simp] theorem silent_w (s : State) (m : WIdx) :
    (s.silent).w m = s.w m := rfl

@[simp] theorem silent_cd (s : State) (m : CdIdx) :
    (s.silent).cd m = s.cd m := rfl

@[simp] theorem silent_filter (s : State) (m : DiIdx) :
    (s.silent).filter m = s.filter m := rfl

@[simp] theorem latch_cfg (s : State) (x : StepInput) (rest : List StepInput) :
    (s.latch x rest).cfg = s.cfg := rfl

@[simp] theorem latch_deb (s : State) (x : StepInput) (rest : List StepInput) :
    (s.latch x rest).deb = s.deb := rfl

@[simp] theorem latch_claim (s : State) (x : StepInput) (rest : List StepInput) :
    (s.latch x rest).claim = s.claim := rfl

@[simp] theorem latch_now (s : State) (x : StepInput) (rest : List StepInput) :
    (s.latch x rest).now = x.now := rfl

@[simp] theorem latch_fresh (s : State) (x : StepInput) (rest : List StepInput) :
    (s.latch x rest).fresh = false := rfl

@[simp] theorem latch_wdata (s : State) (x : StepInput) (rest : List StepInput) :
    (s.latch x rest).wdata = x.wdata := rfl

@[simp] theorem latch_extClaimed (s : State) (x : StepInput) (rest : List StepInput) :
    (s.latch x rest).extClaimed = x.ext := rfl

@[simp] theorem latch_resp (s : State) (x : StepInput) (rest : List StepInput) :
    (s.latch x rest).resp = s.resp := rfl

@[simp] theorem latch_inputs (s : State) (x : StepInput) (rest : List StepInput) :
    (s.latch x rest).inputs = rest := rfl

@[simp] theorem latch_w (s : State) (x : StepInput) (rest : List StepInput) (m : WIdx) :
    (s.latch x rest).w m = s.w m := rfl

@[simp] theorem latch_cd (s : State) (x : StepInput) (rest : List StepInput) (m : CdIdx) :
    (s.latch x rest).cd m = s.cd m := rfl

@[simp] theorem latch_filter (s : State) (x : StepInput) (rest : List StepInput) (m : DiIdx) :
    (s.latch x rest).filter m = s.filter m := rfl

@[simp] theorem present_cfg (s : State) (x : StepInput) :
    (s.present x).cfg = s.cfg := rfl

@[simp] theorem present_deb (s : State) (x : StepInput) :
    (s.present x).deb = s.deb := rfl

@[simp] theorem present_claim (s : State) (x : StepInput) :
    (s.present x).claim = s.claim := rfl

@[simp] theorem present_now (s : State) (x : StepInput) :
    (s.present x).now = s.now := rfl

@[simp] theorem present_fresh (s : State) (x : StepInput) :
    (s.present x).fresh = s.fresh := rfl

@[simp] theorem present_wdata (s : State) (x : StepInput) :
    (s.present x).wdata = s.wdata := rfl

@[simp] theorem present_extClaimed (s : State) (x : StepInput) :
    (s.present x).extClaimed = s.extClaimed := rfl

@[simp] theorem present_resp (s : State) (x : StepInput) :
    (s.present x).resp = s.resp := rfl

@[simp] theorem present_inputs (s : State) (x : StepInput) :
    (s.present x).inputs = x :: s.inputs := rfl

@[simp] theorem present_w (s : State) (x : StepInput) (m : WIdx) :
    (s.present x).w m = s.w m := rfl

@[simp] theorem present_cd (s : State) (x : StepInput) (m : CdIdx) :
    (s.present x).cd m = s.cd m := rfl

@[simp] theorem present_filter (s : State) (x : StepInput) (m : DiIdx) :
    (s.present x).filter m = s.filter m := rfl

@[simp] theorem setW_w_same (s : State) (n : WIdx) (r : Wiegand) : (s.setW n r).w n = r := by
  match n with
  | 0 => rfl
  | 1 => rfl

theorem setW_w_ne (s : State) {n m : WIdx} (r : Wiegand) (h : m ≠ n) : (s.setW n r).w m = s.w m := by
  match n, m with
  | 0, 0 => exact absurd rfl h
  | 0, 1 => rfl
  | 1, 0 => rfl
  | 1, 1 => exact absurd rfl h

theorem setW_w (s : State) (n m : WIdx) (r : Wiegand) : (s.setW n r).w m = if m = n then r else s.w m := by
  by_cases h : m = n
  · subst h; simp
  · simp [h, setW_w_ne]

@[simp] theorem setW_self (s : State) (n : WIdx) : s.setW n (s.w n) = s := by
  match n with
  | 0 => rfl
  | 1 => rfl

@[simp] theorem setCd_cd_same (s : State) (j : CdIdx) (r : ClockData) : (s.setCd j r).cd j = r := by
  match j with
  | 0 => rfl
  | 1 => rfl

theorem setCd_cd_ne (s : State) {j m : CdIdx} (r : ClockData) (h : m ≠ j) : (s.setCd j r).cd m = s.cd m := by
  match j, m with
  | 0, 0 => exact absurd rfl h
  | 0, 1 => rfl
  | 1, 0 => rfl
  | 1, 1 => exact absurd rfl h

theorem setCd_cd (s : State) (j m : CdIdx) (r : ClockData) :
    (s.setCd j r).cd m = if m = j then r else s.cd m := by
  by_cases h : m = j
  · subst h; simp
  · simp [h, setCd_cd_ne]

theorem setFilter_filter_same {s : State} {k : DiIdx} {d : Debounce} (e : Debounce) (h : s.filter k = some d) :
    (s.setFilter k e).filter k = some e := by
  have hk : k.val < s.deb.length := (List.getElem?_eq_some_iff.mp h).1
  simp [State.filter, hk]

theorem setFilter_filter_ne (s : State) {k m : DiIdx} (e : Debounce) (h : m ≠ k) :
    (s.setFilter k e).filter m = s.filter m := by
  have : k.val ≠ m.val := fun hv => h (Fin.ext hv.symm)
  simp [State.filter, this]

/-- A filter that is there is one of the records. -/
theorem mem_of_filter {s : State} {k : DiIdx} {d : Debounce} (h : s.filter k = some d) : d ∈ s.deb :=
  List.mem_of_getElem? h

/-- A property of every record survives the update of one record to a record with the property. -/
theorem forall_deb_setFilter {P : Debounce → Prop} {s : State} (k : DiIdx) {e : Debounce} (he : P e)
    (h : ∀ d ∈ s.deb, P d) : ∀ d ∈ (s.setFilter k e).deb, P d := by
  intro d hd
  rcases List.mem_or_eq_of_mem_set hd with hd | rfl
  · exact h d hd
  · exact he

@[simp] theorem wasLow_setWasLow (r : Wiegand) (L : Line) (b : Bool) : (r.setWasLow L b).wasLow L = b := by
  cases L <;> rfl

@[simp] theorem wasLow_setWasLow_other (r : Wiegand) (L : Line) (b : Bool) :
    (r.setWasLow L b).wasLow L.other = r.wasLow L.other := by
  cases L <;> rfl

theorem wasLow_setWasLow_ne (r : Wiegand) {L M : Line} (b : Bool) (h : M ≠ L) :
    (r.setWasLow L b).wasLow M = r.wasLow M := by
  cases L <;> cases M <;> first | rfl | exact absurd rfl h

@[simp] theorem setWasLow_enabled (r : Wiegand) (L : Line) (b : Bool) : (r.setWasLow L b).enabled = r.enabled := by
  cases L <;> rfl

@[simp] theorem setWasLow_activeLine (r : Wiegand) (L : Line) (b : Bool) : (r.setWasLow L b).activeLine = r.activeLine := by
  cases L <;> rfl

@[simp] theorem setWasLow_word (r : Wiegand) (L : Line) (b : Bool) : (r.setWasLow L b).word = r.word := by
  cases L <;> rfl

@[simp] theorem setWasLow_bitCount (r : Wiegand) (L : Line) (b : Bool) : (r.setWasLow L b).bitCount = r.bitCount := by
  cases L <;> rfl

@[simp] theorem setWasLow_lastBitTs (r : Wiegand) (L : Line) (b : Bool) : (r.setWasLow L b).lastBitTs = r.lastBitTs := by
  cases L <;> rfl

@[simp] theorem setWasLow_noise (r : Wiegand) (L : Line) (b : Bool) : (r.setWasLow L b).noise = r.noise := by
  cases L <;> rfl

@[simp] theorem setWasLow_itvlMin (r : Wiegand) (L : Line) (b : Bool) : (r.setWasLow L b).itvlMin = r.itvlMin := by
  cases L <;> rfl

@[simp] theorem setWasLow_itvlMax (r : Wiegand) (L : Line) (b : Bool) : (r.setWasLow L b).itvlMax = r.itvlMax := by
  cases L <;> rfl

@[simp] theorem setWasLow_widthMin (r : Wiegand) (L : Line) (b : Bool) : (r.setWasLow L b).widthMin = r.widthMin := by
  cases L <;> rfl

@[simp] theorem setWasLow_widthMax (r : Wiegand) (L : Line) (b : Bool) : (r.setWasLow L b).widthMax = r.widthMax := by
  cases L <;> rfl

@[simp] theorem setWasLow_snapTs (r : Wiegand) (L : Line) (b : Bool) : (r.setWasLow L b).snapTs = r.snapTs := by
  cases L <;> rfl

@[simp] theorem setWasLow_snapBits (r : Wiegand) (L : Line) (b : Bool) : (r.setWasLow L b).snapBits = r.snapBits := by
  cases L <;> rfl

@[simp] theorem setWasLow_snapWord (r : Wiegand) (L : Line) (b : Bool) : (r.setWasLow L b).snapWord = r.snapWord := by
  cases L <;> rfl

end Sys2Proof.Machine
end

