-- ==== Sys2Proof/Laws/Wiegand.lean ====
section
/-! SUPPORT. What a Wiegand notification can do, said once (41_wiegand.md R401 to R407), and what it never touches. -/

namespace Sys2Proof.Machine

theorem wiegandTimeout_activeLine (now : Micros) (r : Wiegand) : (wiegandTimeout now r).activeLine = r.activeLine := by
  unfold wiegandTimeout; split <;> rfl

theorem wiegandTimeout_wasLow (now : Micros) (r : Wiegand) (L : Line) :
    (wiegandTimeout now r).wasLow L = r.wasLow L := by
  unfold wiegandTimeout; split <;> cases L <;> rfl

/-- After the timeout test the accumulated bits are those before it, or none. -/
theorem wiegandTimeout_bits (now : Micros) (r : Wiegand) :
    ((wiegandTimeout now r).word = r.word ∧ (wiegandTimeout now r).bitCount = r.bitCount) ∨
      ((wiegandTimeout now r).word = 0 ∧ (wiegandTimeout now r).bitCount = 0) := by
  unfold wiegandTimeout; split <;> simp

/-- The fields that no notification changes (R434): enable, thresholds and shadow. -/
def Wiegand.SameSettings (r q : Wiegand) : Prop :=
  q.enabled = r.enabled ∧ q.itvlMin = r.itvlMin ∧ q.itvlMax = r.itvlMax ∧ q.widthMin = r.widthMin ∧
    q.widthMax = r.widthMax ∧ q.snapTs = r.snapTs ∧ q.snapBits = r.snapBits ∧ q.snapWord = r.snapWord

theorem wiegandNoise_settings (c : Noise) (r : Wiegand) : r.SameSettings (wiegandNoise c r) :=
  ⟨rfl, rfl, rfl, rfl, rfl, rfl, rfl, rfl⟩

theorem wiegandTimeout_settings (now : Micros) (r : Wiegand) : r.SameSettings (wiegandTimeout now r) := by
  unfold wiegandTimeout; split <;> exact ⟨rfl, rfl, rfl, rfl, rfl, rfl, rfl, rfl⟩

theorem Wiegand.SameSettings.trans {a b c : Wiegand} (h : a.SameSettings b) (g : b.SameSettings c) :
    a.SameSettings c := by
  obtain ⟨h1, h2, h3, h4, h5, h6, h7, h8⟩ := h
  obtain ⟨g1, g2, g3, g4, g5, g6, g7, g8⟩ := g
  exact ⟨g1.trans h1, g2.trans h2, g3.trans h3, g4.trans h4, g5.trans h5, g6.trans h6, g7.trans h7, g8.trans h8⟩

theorem setWasLow_settings (r : Wiegand) (L : Line) (b : Bool) : r.SameSettings (r.setWasLow L b) := by
  simp [Wiegand.SameSettings]

/-- Everything a notification can do, in the order the rules test it. -/
theorem wiegandEdge_cases (L : Line) (level : Bool) (now : Micros) (r : Wiegand) :
    (r.enabled = false ∧ wiegandEdge L level now r = r) ∨
    (r.enabled = true ∧ isLow level = r.wasLow L ∧ wiegandEdge L level now r = { r with noise := .repeatedEdge }) ∨
    (r.enabled = true ∧ level = false ∧ r.wasLow L = false ∧ pulseTooEarly now r = true ∧
      wiegandEdge L level now r = wiegandNoise .pulseTooEarly (r.setWasLow L true)) ∨
    (r.enabled = true ∧ level = false ∧ r.wasLow L = false ∧ pulseTooEarly now r = false ∧ r.activeLine ≠ none ∧
      wiegandEdge L level now r = wiegandNoise .concurrentLines (wiegandTimeout now (r.setWasLow L true))) ∨
    (r.enabled = true ∧ level = false ∧ r.wasLow L = false ∧ pulseTooEarly now r = false ∧ r.activeLine = none ∧
      wiegandEdge L level now r
        = { wiegandTimeout now (r.setWasLow L true) with activeLine := some L, lastBitTs := now }) ∨
    (r.enabled = true ∧ level = true ∧ r.wasLow L = true ∧ r.activeLine ≠ some L ∧
      wiegandEdge L level now r = wiegandNoise .unexpectedLine (r.setWasLow L false)) ∨
    (r.enabled = true ∧ level = true ∧ r.wasLow L = true ∧ r.activeLine = some L ∧ 64 ≤ r.bitCount.toNat ∧
      wiegandEdge L level now r = { r.setWasLow L false with activeLine := none }) ∨
    (r.enabled = true ∧ level = true ∧ r.wasLow L = true ∧ r.activeLine = some L ∧ ¬ 64 ≤ r.bitCount.toNat ∧
      (now - r.lastBitTs < r.widthMin ∨ r.widthMax < now - r.lastBitTs) ∧
      wiegandEdge L level now r = wiegandNoise .badPulseWidth { r.setWasLow L false with activeLine := none }) ∨
    (r.enabled = true ∧ level = true ∧ r.wasLow L = true ∧ r.activeLine = some L ∧ ¬ 64 ≤ r.bitCount.toNat ∧
      ¬ (now - r.lastBitTs < r.widthMin ∨ r.widthMax < now - r.lastBitTs) ∧
      wiegandEdge L level now r
        = { r.setWasLow L false with activeLine := none, word := shiftIn r.word L.bit, bitCount := r.bitCount + 1 }) := by
  cases he : r.enabled with
  | false => left; simp [wiegandEdge, he]
  | true =>
    right
    by_cases hw : isLow level = r.wasLow L
    · left; simp [wiegandEdge, he, hw]
    · right
      cases level with
      | false =>
        have hwl : r.wasLow L = false := by simpa [isLow] using hw
        have hpe : pulseTooEarly now (r.setWasLow L true) = pulseTooEarly now r := by simp [pulseTooEarly]
        cases hp : pulseTooEarly now r with
        | true => left; simp [wiegandEdge, he, isLow, hwl, levelChange, fallingEdge, hpe, hp]
        | false =>
          have ha : (wiegandTimeout now (r.setWasLow L true)).activeLine = r.activeLine := by
            simp [wiegandTimeout_activeLine]
          cases hal : r.activeLine with
          | some M =>
            right; left
            simp [wiegandEdge, he, isLow, hwl, levelChange, fallingEdge, hpe, hp, openPulse, ha, hal]
          | none =>
            right; right; left
            simp [wiegandEdge, he, isLow, hwl, levelChange, fallingEdge, hpe, hp, openPulse, ha, hal]
      | true =>
        have hwl : r.wasLow L = true := by simpa [isLow] using hw
        right; right; right
        by_cases hal : r.activeLine = some L
        · right
          by_cases hf : 64 ≤ r.bitCount.toNat
          · left; simp [wiegandEdge, he, isLow, hwl, levelChange, risingEdge, hal, closePulse, hf]
          · right
            by_cases hb : now - r.lastBitTs < r.widthMin ∨ r.widthMax < now - r.lastBitTs
            · left
              simp [wiegandEdge, he, isLow, hwl, levelChange, risingEdge, hal, closePulse, hf, appendPulse, hb]
            · right
              simp [wiegandEdge, he, isLow, hwl, levelChange, risingEdge, hal, closePulse, hf, appendPulse, hb]
        · left; simp [wiegandEdge, he, isLow, hwl, levelChange, risingEdge, hal]

/-- No notification disables the instance, changes a threshold or the shadow (R434). -/
theorem wiegandEdge_settings (L : Line) (level : Bool) (now : Micros) (r : Wiegand) :
    r.SameSettings (wiegandEdge L level now r) := by
  rcases wiegandEdge_cases L level now r with ⟨-, h⟩ | ⟨-, -, h⟩ | ⟨-, -, -, -, h⟩ | ⟨-, -, -, -, -, h⟩ |
    ⟨-, -, -, -, -, h⟩ | ⟨-, -, -, -, h⟩ | ⟨-, -, -, -, -, h⟩ | ⟨-, -, -, -, -, -, h⟩ | ⟨-, -, -, -, -, -, h⟩ <;> rw [h]
  · exact ⟨rfl, rfl, rfl, rfl, rfl, rfl, rfl, rfl⟩
  · exact ⟨rfl, rfl, rfl, rfl, rfl, rfl, rfl, rfl⟩
  · exact (setWasLow_settings r L true).trans (wiegandNoise_settings _ _)
  · exact ((setWasLow_settings r L true).trans (wiegandTimeout_settings now _)).trans (wiegandNoise_settings _ _)
  · exact (setWasLow_settings r L true).trans (wiegandTimeout_settings now _)
  · exact (setWasLow_settings r L false).trans (wiegandNoise_settings _ _)
  · exact setWasLow_settings r L false
  · exact setWasLow_settings r L false
  · exact setWasLow_settings r L false

end Sys2Proof.Machine
end

