-- ==== Sys2Proof/Laws/Step.lean ====
section
/-! SUPPORT. Everything an operation and a step can do, said once: `exec_effect`, `step_effect`, and when a step is admitted. -/

namespace Sys2Proof.Machine

/-- What a step of W[n] other than an enable or disable makes of the record. -/
inductive WiegandChange (s : State) (n : WIdx) : Wiegand → Prop where
  | edge (L : Line) (level : Bool) : WiegandChange s n (wiegandEdge L level s.now (s.w n))
  | itvlMin : WiegandChange s n { s.w n with itvlMin := s.wdata }
  | itvlMax : WiegandChange s n { s.w n with itvlMax := s.wdata }
  | widthMin : WiegandChange s n { s.w n with widthMin := s.wdata }
  | widthMax : WiegandChange s n { s.w n with widthMax := s.wdata }
  | clearNoise : WiegandChange s n { s.w n with noise := .none }
  | capture (enabled : (s.w n).enabled = true) (free : wiegandBusy s.now (s.w n) = false) :
      WiegandChange s n (wiegandCapture (s.w n))

/-- What a step of CD[j] other than an enable or disable makes of the record. -/
inductive ClockDataChange (s : State) (j : CdIdx) : ClockData → Prop where
  | edge (data : Bool) : ClockDataChange s j (clockEdge data s.now (s.cd j))
  | periodMin : ClockDataChange s j { s.cd j with periodMin := s.wdata }
  | periodMax : ClockDataChange s j { s.cd j with periodMax := s.wdata }
  | clearNoise : ClockDataChange s j { s.cd j with noise := .none }
  | capture (enabled : (s.cd j).enabled = true) (free : clockDataBusy s.now (s.cd j) = false) :
      ClockDataChange s j (clockDataCapture (s.cd j))

/-- What a step of a filter makes of its record. -/
inductive DebounceChange (s : State) (d : Debounce) : Debounce → Prop where
  | event (level : Bool) : DebounceChange s d (debounceEvent level s.now d)
  | expire (level sample : Bool) (pending : d.pend = .armed level s.now) :
      DebounceChange s d (debounceExpire level sample d)
  | onMs (ms : Millis) : DebounceChange s d (debounceReconfig { d with holdOnMs := ms })
  | offMs (ms : Millis) : DebounceChange s d (debounceReconfig { d with holdOffMs := ms })

/-- Everything an operation can do to a state (the fields of the model's own, but for the response, never change, except that a
block reset starts a new run). -/
inductive Effect (s : State) : State → Prop where
  | respond (st : Status) (v : Word) : Effect s (s.respond st v)
  | wiegand (n : WIdx) (r : Wiegand) (o : Option Response) (change : WiegandChange s n r) :
      Effect s { s.setW n r with resp := o }
  | clockData (j : CdIdx) (r : ClockData) (o : Option Response) (change : ClockDataChange s j r) :
      Effect s { s.setCd j r with resp := o }
  | debounce (k : DiIdx) (d e : Debounce) (o : Option Response) (there : s.filter k = some d)
      (change : DebounceChange s d e) : Effect s { s.setFilter k e with resp := o }
  | enableW (n : WIdx) (off : (s.w n).enabled = false) (free : s.pairHeld (wLines s.cfg n) = false) :
      Effect s (((s.claimPair (wLines s.cfg n) (.w n)).setW n (wiegandEnabled (s.w n))).respond .ok 0)
  | disableW (n : WIdx) (on : (s.w n).enabled = true) :
      Effect s (((s.releasePair (wLines s.cfg n)).setW n { s.w n with enabled := false }).respond .ok 0)
  | enableCd (j : CdIdx) (off : (s.cd j).enabled = false) (free : s.pairHeld (cdLines s.cfg j) = false) :
      Effect s (((s.claimPair (cdLines s.cfg j) (.cd j)).setCd j (clockDataEnabled (s.cd j))).respond .ok 0)
  | disableCd (j : CdIdx) (on : (s.cd j).enabled = true) :
      Effect s (((s.releasePair (cdLines s.cfg j)).setCd j { s.cd j with enabled := false }).respond .ok 0)
  | reset : Effect s { State.resetFor s.cfg with inputs := s.inputs }

/-- A host access to a filter: DECERR, or what the access does to the record there. -/
theorem withFilter_next {s t : State} {k : DiIdx} {f : Debounce → Host.Outcome State Fault Refusal}
    (h : withFilter s k f = .next t) :
    (s.filter k = none ∧ t = s.respond .decErr 0) ∨ (∃ d, s.filter k = some d ∧ f d = .next t) := by
  unfold withFilter at h
  split at h
  · next d hd => exact .inr ⟨d, hd, h⟩
  · next hd => cases h; exact .inl ⟨hd, rfl⟩

/-- An event or expiry of a filter answers a next state only where the filter exists. -/
theorem withEventFilter_next {s t : State} {k : DiIdx} {f : Debounce → Host.Outcome State Fault Refusal}
    (h : withEventFilter s k f = .next t) : ∃ d, s.filter k = some d ∧ f d = .next t := by
  unfold withEventFilter at h
  split at h
  · next d hd => exact ⟨d, hd, h⟩
  · cases h

theorem answer_effect {s t : State} {v : Word} (h : s.answer v = .next t) : Effect s t := by
  cases h; exact .respond .ok v

theorem fail_effect {s t : State} {st : Status} (h : s.fail st = .next t) : Effect s t := by
  cases h; exact .respond st 0

/-- Everything a write of ENABLED of W[n] can do (41_wiegand.md R408 to R410). -/
theorem wrWEnabled_effect {n : WIdx} {s t : State} (h : execWrWEnabled n s = .next t) : Effect s t := by
  unfold execWrWEnabled at h
  split at h
  · unfold State.enableW at h
    split at h
    · exact answer_effect h
    · next off =>
      split at h
      · exact fail_effect h
      · next free => cases h; exact .enableW n (by simpa using off) (by simpa using free)
  · unfold State.disableW at h
    split at h
    · next on => cases h; exact .disableW n on
    · exact answer_effect h
  · exact fail_effect h

/-- Everything a write of ENABLED of CD[j] can do (42_clock_data.md R503, R504, R510). -/
theorem wrCdEnabled_effect {j : CdIdx} {s t : State} (h : execWrCdEnabled j s = .next t) : Effect s t := by
  unfold execWrCdEnabled at h
  split at h
  · unfold State.enableCd at h
    split at h
    · exact answer_effect h
    · next off =>
      split at h
      · exact fail_effect h
      · next free => cases h; exact .enableCd j (by simpa using off) (by simpa using free)
  · unfold State.disableCd at h
    split at h
    · next on => cases h; exact .disableCd j on
    · exact answer_effect h
  · exact fail_effect h

theorem rdWDataTs_effect {n : WIdx} {s t : State} (h : execRdWDataTs n s = .next t) : Effect s t := by
  unfold execRdWDataTs at h
  split at h
  · exact fail_effect h
  · next on =>
    split at h
    · exact fail_effect h
    · next free => cases h; exact .wiegand n _ _ (.capture (by simpa using on) (by simpa using free))

theorem rdCdDataTs_effect {j : CdIdx} {s t : State} (h : execRdCdDataTs j s = .next t) : Effect s t := by
  unfold execRdCdDataTs at h
  split at h
  · exact fail_effect h
  · next on =>
    split at h
    · exact fail_effect h
    · next free => cases h; exact .clockData j _ _ (.capture (by simpa using on) (by simpa using free))

theorem wrDiOnMs_effect {k : DiIdx} {s t : State} (h : execWrDiOnMs k s = .next t) : Effect s t := by
  rcases withFilter_next h with ⟨-, rfl⟩ | ⟨d, hd, h⟩
  · exact .respond .decErr 0
  · split at h
    · cases h; exact .debounce k d _ _ hd (.onMs _)
    · exact fail_effect h

theorem wrDiOffMs_effect {k : DiIdx} {s t : State} (h : execWrDiOffMs k s = .next t) : Effect s t := by
  rcases withFilter_next h with ⟨-, rfl⟩ | ⟨d, hd, h⟩
  · exact .respond .decErr 0
  · split at h
    · cases h; exact .debounce k d _ _ hd (.offMs _)
    · exact fail_effect h

theorem evDiIn_effect {k : DiIdx} {level : Bool} {s t : State} (h : execEvDiIn k level s = .next t) : Effect s t := by
  obtain ⟨d, hd, h⟩ := withEventFilter_next h
  cases h
  exact .debounce k d _ _ hd (.event level)

theorem sysExpire_effect {k : DiIdx} {sample : Bool} {s t : State} (h : execSysExpire k sample s = .next t) :
    Effect s t := by
  obtain ⟨d, hd, h⟩ := withEventFilter_next h
  split at h
  · cases h
  · next level deadline hp =>
    split at h
    · next hn => cases h; exact .debounce k d _ _ hd (.expire level sample (hn ▸ hp))
    · cases h

/-- A read of a filter's register answers, or is DECERR. -/
theorem filterRead_effect {k : DiIdx} {s t : State} {f : Debounce → Word}
    (h : (withFilter s k fun d => s.answer (f d)) = .next t) : Effect s t := by
  rcases withFilter_next h with ⟨-, rfl⟩ | ⟨d, -, h⟩
  · exact .respond .decErr 0
  · exact answer_effect h

/-- Everything an operation can do. -/
theorem exec_effect {i : Instr} {s t : State} (h : exec i s = .next t) : Effect s t := by
  cases i with
  | wrWEnabled n => exact wrWEnabled_effect h
  | rdWEnabled n => exact answer_effect h
  | rdWDataTs n => exact rdWDataTs_effect h
  | rdWDataBits n => exact answer_effect h
  | rdWDataWord n => exact answer_effect h
  | rdWNoise n => cases h; exact .wiegand n _ _ .clearNoise
  | rdWItvlMin n => exact answer_effect h
  | wrWItvlMin n => cases h; exact .wiegand n _ _ .itvlMin
  | rdWItvlMax n => exact answer_effect h
  | wrWItvlMax n => cases h; exact .wiegand n _ _ .itvlMax
  | rdWWidthMin n => exact answer_effect h
  | wrWWidthMin n => cases h; exact .wiegand n _ _ .widthMin
  | rdWWidthMax n => exact answer_effect h
  | wrWWidthMax n => cases h; exact .wiegand n _ _ .widthMax
  | evWD0 n level => cases h; exact .wiegand n _ _ (.edge .d0 level)
  | evWD1 n level => cases h; exact .wiegand n _ _ (.edge .d1 level)
  | wrCdEnabled j => exact wrCdEnabled_effect h
  | rdCdEnabled j => exact answer_effect h
  | rdCdDataTs j => exact rdCdDataTs_effect h
  | rdCdDataBits j => exact answer_effect h
  | rdCdDataWord j => exact answer_effect h
  | rdCdNoise j => cases h; exact .clockData j _ _ .clearNoise
  | rdCdPeriodMin j => exact answer_effect h
  | wrCdPeriodMin j => cases h; exact .clockData j _ _ .periodMin
  | rdCdPeriodMax j => exact answer_effect h
  | wrCdPeriodMax j => cases h; exact .clockData j _ _ .periodMax
  | evCdClk j data => cases h; exact .clockData j _ _ (.edge data)
  | rdDiDeb k => exact filterRead_effect h
  | rdDiOnMs k => exact filterRead_effect h
  | wrDiOnMs k => exact wrDiOnMs_effect h
  | rdDiOffMs k => exact filterRead_effect h
  | wrDiOffMs k => exact wrDiOffMs_effect h
  | rdDiOnCnt k => exact filterRead_effect h
  | rdDiOffCnt k => exact filterRead_effect h
  | evDiIn k level => exact evDiIn_effect h
  | sysExpire k sample => exact sysExpire_effect h
  | sysReset => cases h; exact .reset

/-- What a step runs: nothing while there is no step to come; an admitted step either runs the operation it names or, naming none,
is answered DECERR. -/
theorem step_next {s t : State} (h : step s = .next t) :
    (s.inputs = [] ∧ t = s) ∨
      ∃ x rest, s.inputs = x :: rest ∧ s.refusalByTime x = none ∧
        ((∃ i, s.decodeStep x = .ok i ∧ exec i (s.latch x rest) = .next t) ∨
          (s.decodeStep x = .error .decErr ∧ t = (s.latch x rest).respond .decErr 0)) := by
  unfold step at h
  split at h
  · next he => cases h; exact .inl ⟨he, rfl⟩
  · next x rest he =>
    refine .inr ⟨x, rest, he, ?_⟩
    split at h
    · cases h
    · next ha =>
      refine ⟨ha, ?_⟩
      split at h
      · next i hi => exact .inl ⟨i, hi, h⟩
      · next e hd =>
        cases e with
        | decErr => cases h; exact .inr ⟨hd, rfl⟩
        | noSuchOperation => cases h

/-- Everything a step can do. -/
theorem step_effect {s t : State} (h : step s = .next t) :
    (s.inputs = [] ∧ t = s) ∨
      ∃ x rest, s.inputs = x :: rest ∧ s.refusalByTime x = none ∧ Effect (s.latch x rest) t := by
  rcases step_next h with h | ⟨x, rest, he, ha, ⟨i, -, hx⟩ | ⟨-, rfl⟩⟩
  · exact .inl h
  · exact .inr ⟨x, rest, he, ha, exec_effect hx⟩
  · exact .inr ⟨x, rest, he, ha, .respond .decErr 0⟩

/-- When a step is admitted: the premise of 60_exceptions.md R814 holds, time is at T_RESET or has not decreased, no pending deadline
has passed, and the filter it touches has no timer due (43_debounce.md R602). -/
theorem refusalByTime_eq_none_iff (s : State) (x : StepInput) :
    s.refusalByTime x = none ↔
      timeFits x.now = true ∧ (s.fresh = true → x.now = s.cfg.tReset) ∧ (s.fresh = false → s.now ≤ x.now) ∧
        (∀ d ∈ s.deb, pastDeadline x.now d = false) ∧ s.touchesDue x = false := by
  unfold State.refusalByTime
  split
  · next h => simp [h]
  · next h1 =>
    have h1' : timeFits x.now = true := by simpa using h1
    split
    · next h => simp [h.1, h.2]
    · next h2 =>
      have h2' : s.fresh = true → x.now = s.cfg.tReset := fun hf => by
        by_contra hc; exact h2 ⟨hf, hc⟩
      split
      · next h => simp [h.1, BitVec.not_le.mpr h.2]
      · next h3 =>
        have h3' : s.fresh = false → s.now ≤ x.now := fun hf => by
          by_contra hc; exact h3 ⟨hf, BitVec.not_le.mp hc⟩
        split
        · next h =>
          obtain ⟨d, hd, hp⟩ := List.any_eq_true.mp h
          simp only [reduceCtorEq, false_iff]
          rintro ⟨-, -, -, hall, -⟩
          rw [hall d hd] at hp
          cases hp
        · next h4 =>
          have h4' : ∀ d ∈ s.deb, pastDeadline x.now d = false := fun d hd => by
            by_contra hc
            exact h4 (List.any_eq_true.mpr ⟨d, hd, by simpa using hc⟩)
          split
          · next h => simp [h]
          · next h5 => simp only [true_iff]; exact ⟨h1', h2', h3', h4', by simpa using h5⟩

/-- A pending deadline that has not passed is not before `now`. -/
theorem not_pastDeadline {now : Micros} {d : Debounce} (h : pastDeadline now d = false) {level : Bool}
    {deadline : Micros} (hp : d.pend = .armed level deadline) : now ≤ deadline := by
  simp only [pastDeadline, hp, decide_eq_false_iff_not] at h
  exact BitVec.not_lt.mp h

end Sys2Proof.Machine
end

