-- ==== Sys2Proof/Laws/Frames.lean ====
section
/-! SUPPORT. The frames of the shared updates: what an update of one record, or of one record and the claim table, leaves alone. -/

namespace Sys2Proof.Machine

theorem onlyWiegand_setW (s : State) (n : WIdx) (r : Wiegand) (o : Option Response) :
    OnlyWiegand n s { s.setW n r with resp := o } := by
  refine ⟨fun m hm => ?_, fun j => ?_, ?_, ?_, ?_⟩
  · exact setW_w_ne s r hm
  · exact setW_cd s n r j
  · exact setW_deb s n r
  · exact setW_claim s n r
  · exact ⟨setW_cfg s n r, setW_now s n r, setW_fresh s n r, setW_wdata s n r, setW_extClaimed s n r, setW_inputs s n r⟩

theorem onlyClockData_setCd (s : State) (j : CdIdx) (r : ClockData) (o : Option Response) :
    OnlyClockData j s { s.setCd j r with resp := o } := by
  refine ⟨fun n => ?_, fun m hm => ?_, ?_, ?_, ?_⟩
  · exact setCd_w s j r n
  · exact setCd_cd_ne s r hm
  · exact setCd_deb s j r
  · exact setCd_claim s j r
  · exact ⟨setCd_cfg s j r, setCd_now s j r, setCd_fresh s j r, setCd_wdata s j r, setCd_extClaimed s j r,
      setCd_inputs s j r⟩

theorem onlyDebounce_setFilter (s : State) (k : DiIdx) (d : Debounce) (o : Option Response) :
    OnlyDebounce k s { s.setFilter k d with resp := o } := by
  refine ⟨fun n => rfl, fun j => rfl, ?_, fun m hm => ?_, rfl, rfl, rfl, rfl, rfl, rfl, rfl⟩
  · simp [State.setFilter]
  · simp only [State.filter, State.setFilter]
    exact List.getElem?_set_ne (fun h => hm (Fin.ext h.symm))

/-- Nothing but the response changes. -/
theorem onlyWiegand_respond (n : WIdx) (s : State) (st : Status) (v : Word) : OnlyWiegand n s (s.respond st v) :=
  ⟨fun _ _ => rfl, fun _ => rfl, rfl, rfl, rfl, rfl, rfl, rfl, rfl, rfl⟩

theorem onlyClockData_respond (j : CdIdx) (s : State) (st : Status) (v : Word) : OnlyClockData j s (s.respond st v) :=
  ⟨fun _ => rfl, fun _ _ => rfl, rfl, rfl, rfl, rfl, rfl, rfl, rfl, rfl⟩

theorem onlyDebounce_respond (k : DiIdx) (s : State) (st : Status) (v : Word) : OnlyDebounce k s (s.respond st v) :=
  ⟨fun _ => rfl, fun _ => rfl, rfl, fun _ _ => rfl, rfl, rfl, rfl, rfl, rfl, rfl, rfl⟩

theorem OnlyWiegand.andClaims {n : WIdx} {s t : State} (h : OnlyWiegand n s t) : OnlyWiegandAndClaims n s t :=
  ⟨h.1, h.2.1, h.2.2.1, h.2.2.2.2⟩

theorem OnlyClockData.andClaims {j : CdIdx} {s t : State} (h : OnlyClockData j s t) : OnlyClockDataAndClaims j s t :=
  ⟨h.1, h.2.1, h.2.2.1, h.2.2.2.2⟩

end Sys2Proof.Machine
end

