-- ==== Sys2Proof/Laws/PerInstr.lean ====
section
/-! SUPPORT. Per instruction: the encoder's descriptor, under its row's mask, is the row's match (30_encoding.md R310; the numbers
are those of the table, written out again here, so that the encoder is checked against them). -/

namespace Sys2Proof

/-- The mask and match of an operation's row in R310. -/
def Laws.RowMatch.row : Instr → Descriptor × Descriptor
  | .wrWEnabled _ => (0xFFFFFC0F, 0x40000000)
  | .rdWEnabled _ => (0xFFFFFC0F, 0x00000000)
  | .rdWDataTs _ => (0xFFFFFC0F, 0x00000001)
  | .rdWDataBits _ => (0xFFFFFC0F, 0x00000002)
  | .rdWDataWord _ => (0xFFFFFC0F, 0x00000003)
  | .rdWNoise _ => (0xFFFFFC0F, 0x00000004)
  | .rdWItvlMin _ => (0xFFFFFC0F, 0x00000005)
  | .wrWItvlMin _ => (0xFFFFFC0F, 0x40000005)
  | .rdWItvlMax _ => (0xFFFFFC0F, 0x00000006)
  | .wrWItvlMax _ => (0xFFFFFC0F, 0x40000006)
  | .rdWWidthMin _ => (0xFFFFFC0F, 0x00000007)
  | .wrWWidthMin _ => (0xFFFFFC0F, 0x40000007)
  | .rdWWidthMax _ => (0xFFFFFC0F, 0x00000008)
  | .wrWWidthMax _ => (0xFFFFFC0F, 0x40000008)
  | .evWD0 _ _ => (0xFFFFFC0E, 0x80000000)
  | .evWD1 _ _ => (0xFFFFFC0E, 0x80000004)
  | .wrCdEnabled _ => (0xFFFFFC0F, 0x40000400)
  | .rdCdEnabled _ => (0xFFFFFC0F, 0x00000400)
  | .rdCdDataTs _ => (0xFFFFFC0F, 0x00000401)
  | .rdCdDataBits _ => (0xFFFFFC0F, 0x00000402)
  | .rdCdDataWord _ => (0xFFFFFC0F, 0x00000403)
  | .rdCdNoise _ => (0xFFFFFC0F, 0x00000404)
  | .rdCdPeriodMin _ => (0xFFFFFC0F, 0x00000405)
  | .wrCdPeriodMin _ => (0xFFFFFC0F, 0x40000405)
  | .rdCdPeriodMax _ => (0xFFFFFC0F, 0x00000406)
  | .wrCdPeriodMax _ => (0xFFFFFC0F, 0x40000406)
  | .evCdClk _ _ => (0xFFFFFC0D, 0x80000400)
  | .rdDiDeb _ => (0xFFFFFC0F, 0x00000800)
  | .rdDiOnMs _ => (0xFFFFFC0F, 0x00000801)
  | .wrDiOnMs _ => (0xFFFFFC0F, 0x40000801)
  | .rdDiOffMs _ => (0xFFFFFC0F, 0x00000802)
  | .wrDiOffMs _ => (0xFFFFFC0F, 0x40000802)
  | .rdDiOnCnt _ => (0xFFFFFC0F, 0x00000803)
  | .rdDiOffCnt _ => (0xFFFFFC0F, 0x00000804)
  | .evDiIn _ _ => (0xFFFFFC0E, 0x80000800)
  | .sysExpire _ _ => (0xFFFFFC0E, 0xC0000800)
  | .sysReset => (0xFFFFFFFF, 0xC0000C0F)

/-- The descriptor of an operation matches its row. -/
def Laws.RowMatch.Statement (i : Instr) : Prop := encode i &&& (Laws.RowMatch.row i).1 = (Laws.RowMatch.row i).2

theorem Laws.RowMatch.wrWEnabled (n : WIdx) : Laws.RowMatch.Statement (.wrWEnabled n) := by
  unfold Laws.RowMatch.Statement; revert n; decide

theorem Laws.RowMatch.rdWEnabled (n : WIdx) : Laws.RowMatch.Statement (.rdWEnabled n) := by
  unfold Laws.RowMatch.Statement; revert n; decide

theorem Laws.RowMatch.rdWDataTs (n : WIdx) : Laws.RowMatch.Statement (.rdWDataTs n) := by
  unfold Laws.RowMatch.Statement; revert n; decide

theorem Laws.RowMatch.rdWDataBits (n : WIdx) : Laws.RowMatch.Statement (.rdWDataBits n) := by
  unfold Laws.RowMatch.Statement; revert n; decide

theorem Laws.RowMatch.rdWDataWord (n : WIdx) : Laws.RowMatch.Statement (.rdWDataWord n) := by
  unfold Laws.RowMatch.Statement; revert n; decide

theorem Laws.RowMatch.rdWNoise (n : WIdx) : Laws.RowMatch.Statement (.rdWNoise n) := by
  unfold Laws.RowMatch.Statement; revert n; decide

theorem Laws.RowMatch.rdWItvlMin (n : WIdx) : Laws.RowMatch.Statement (.rdWItvlMin n) := by
  unfold Laws.RowMatch.Statement; revert n; decide

theorem Laws.RowMatch.wrWItvlMin (n : WIdx) : Laws.RowMatch.Statement (.wrWItvlMin n) := by
  unfold Laws.RowMatch.Statement; revert n; decide

theorem Laws.RowMatch.rdWItvlMax (n : WIdx) : Laws.RowMatch.Statement (.rdWItvlMax n) := by
  unfold Laws.RowMatch.Statement; revert n; decide

theorem Laws.RowMatch.wrWItvlMax (n : WIdx) : Laws.RowMatch.Statement (.wrWItvlMax n) := by
  unfold Laws.RowMatch.Statement; revert n; decide

theorem Laws.RowMatch.rdWWidthMin (n : WIdx) : Laws.RowMatch.Statement (.rdWWidthMin n) := by
  unfold Laws.RowMatch.Statement; revert n; decide

theorem Laws.RowMatch.wrWWidthMin (n : WIdx) : Laws.RowMatch.Statement (.wrWWidthMin n) := by
  unfold Laws.RowMatch.Statement; revert n; decide

theorem Laws.RowMatch.rdWWidthMax (n : WIdx) : Laws.RowMatch.Statement (.rdWWidthMax n) := by
  unfold Laws.RowMatch.Statement; revert n; decide

theorem Laws.RowMatch.wrWWidthMax (n : WIdx) : Laws.RowMatch.Statement (.wrWWidthMax n) := by
  unfold Laws.RowMatch.Statement; revert n; decide

theorem Laws.RowMatch.evWD0 (n : WIdx) (level : Bool) : Laws.RowMatch.Statement (.evWD0 n level) := by
  unfold Laws.RowMatch.Statement; revert n level; decide

theorem Laws.RowMatch.evWD1 (n : WIdx) (level : Bool) : Laws.RowMatch.Statement (.evWD1 n level) := by
  unfold Laws.RowMatch.Statement; revert n level; decide

theorem Laws.RowMatch.wrCdEnabled (j : CdIdx) : Laws.RowMatch.Statement (.wrCdEnabled j) := by
  unfold Laws.RowMatch.Statement; revert j; decide

theorem Laws.RowMatch.rdCdEnabled (j : CdIdx) : Laws.RowMatch.Statement (.rdCdEnabled j) := by
  unfold Laws.RowMatch.Statement; revert j; decide

theorem Laws.RowMatch.rdCdDataTs (j : CdIdx) : Laws.RowMatch.Statement (.rdCdDataTs j) := by
  unfold Laws.RowMatch.Statement; revert j; decide

theorem Laws.RowMatch.rdCdDataBits (j : CdIdx) : Laws.RowMatch.Statement (.rdCdDataBits j) := by
  unfold Laws.RowMatch.Statement; revert j; decide

theorem Laws.RowMatch.rdCdDataWord (j : CdIdx) : Laws.RowMatch.Statement (.rdCdDataWord j) := by
  unfold Laws.RowMatch.Statement; revert j; decide

theorem Laws.RowMatch.rdCdNoise (j : CdIdx) : Laws.RowMatch.Statement (.rdCdNoise j) := by
  unfold Laws.RowMatch.Statement; revert j; decide

theorem Laws.RowMatch.rdCdPeriodMin (j : CdIdx) : Laws.RowMatch.Statement (.rdCdPeriodMin j) := by
  unfold Laws.RowMatch.Statement; revert j; decide

theorem Laws.RowMatch.wrCdPeriodMin (j : CdIdx) : Laws.RowMatch.Statement (.wrCdPeriodMin j) := by
  unfold Laws.RowMatch.Statement; revert j; decide

theorem Laws.RowMatch.rdCdPeriodMax (j : CdIdx) : Laws.RowMatch.Statement (.rdCdPeriodMax j) := by
  unfold Laws.RowMatch.Statement; revert j; decide

theorem Laws.RowMatch.wrCdPeriodMax (j : CdIdx) : Laws.RowMatch.Statement (.wrCdPeriodMax j) := by
  unfold Laws.RowMatch.Statement; revert j; decide

theorem Laws.RowMatch.evCdClk (j : CdIdx) (data : Bool) : Laws.RowMatch.Statement (.evCdClk j data) := by
  unfold Laws.RowMatch.Statement; revert j data; decide

theorem Laws.RowMatch.rdDiDeb (k : DiIdx) : Laws.RowMatch.Statement (.rdDiDeb k) := by
  unfold Laws.RowMatch.Statement; revert k; decide

theorem Laws.RowMatch.rdDiOnMs (k : DiIdx) : Laws.RowMatch.Statement (.rdDiOnMs k) := by
  unfold Laws.RowMatch.Statement; revert k; decide

theorem Laws.RowMatch.wrDiOnMs (k : DiIdx) : Laws.RowMatch.Statement (.wrDiOnMs k) := by
  unfold Laws.RowMatch.Statement; revert k; decide

theorem Laws.RowMatch.rdDiOffMs (k : DiIdx) : Laws.RowMatch.Statement (.rdDiOffMs k) := by
  unfold Laws.RowMatch.Statement; revert k; decide

theorem Laws.RowMatch.wrDiOffMs (k : DiIdx) : Laws.RowMatch.Statement (.wrDiOffMs k) := by
  unfold Laws.RowMatch.Statement; revert k; decide

theorem Laws.RowMatch.rdDiOnCnt (k : DiIdx) : Laws.RowMatch.Statement (.rdDiOnCnt k) := by
  unfold Laws.RowMatch.Statement; revert k; decide

theorem Laws.RowMatch.rdDiOffCnt (k : DiIdx) : Laws.RowMatch.Statement (.rdDiOffCnt k) := by
  unfold Laws.RowMatch.Statement; revert k; decide

theorem Laws.RowMatch.evDiIn (k : DiIdx) (level : Bool) : Laws.RowMatch.Statement (.evDiIn k level) := by
  unfold Laws.RowMatch.Statement; revert k level; decide

theorem Laws.RowMatch.sysExpire (k : DiIdx) (level : Bool) : Laws.RowMatch.Statement (.sysExpire k level) := by
  unfold Laws.RowMatch.Statement; revert k level; decide

theorem Laws.RowMatch.sysReset : Laws.RowMatch.Statement .sysReset := by
  unfold Laws.RowMatch.Statement; decide

end Sys2Proof
end

