-- ==== Sys2Proof/Laws/Routing.lean ====
section
/-! SUPPORT. Everything the routing of a notification can do (60_exceptions.md R805): per owner of the line, the one event it gives,
and nothing else. -/

namespace Sys2Proof.Machine

theorem State.route_wiegand {s : State} {n : WIdx} {e : Notification} (h : claimAt s.claim e.line = some (.w n))
    (inputs : List LineId) : s.route inputs e = routeWiegand (wLines s.cfg n) n e := by
  simp only [State.route, h]

theorem State.route_clockData {s : State} {j : CdIdx} {e : Notification} (h : claimAt s.claim e.line = some (.cd j))
    (inputs : List LineId) : s.route inputs e = routeClockData (cdLines s.cfg j) j e := by
  simp only [State.route, h]

theorem State.route_unclaimed {s : State} {e : Notification} (h : claimAt s.claim e.line = none)
    (inputs : List LineId) : s.route inputs e = routeDebounce inputs e := by
  simp only [State.route, h]

theorem routeWiegand_eq_some {p : LinePair} {n : WIdx} {e : Notification} {i : Instr} (h : routeWiegand p n e = some i) :
    (e.line = p.first ∧ i = .evWD0 n e.level) ∨ (e.line = p.second ∧ e.line ≠ p.first ∧ i = .evWD1 n e.level) := by
  unfold routeWiegand at h
  split at h
  · next h1 => cases h; exact .inl ⟨h1, rfl⟩
  · next h1 =>
    split at h
    · next h2 => cases h; exact .inr ⟨h2, h1, rfl⟩
    · cases h

theorem routeClockData_eq_some {p : LinePair} {j : CdIdx} {e : Notification} {i : Instr}
    (h : routeClockData p j e = some i) : e.line = p.first ∧ e.rising = true ∧ i = .evCdClk j e.data := by
  unfold routeClockData at h
  split at h
  · next h1 => cases h; exact ⟨h1.1, h1.2, rfl⟩
  · cases h

/-- `List.idxOf?_eq_some_iff`, said through `[·]?` as the statements say it. -/
theorem idxOf?_eq_some_iff_getElem? {xs : List LineId} {ln : LineId} {k : Nat} :
    xs.idxOf? ln = some k ↔ xs[k]? = some ln ∧ ∀ m, m < k → xs[m]? ≠ some ln := by
  rw [List.idxOf?_eq_some_iff]
  constructor
  · rintro ⟨hk, hv, hf⟩
    exact ⟨by rw [List.getElem?_eq_getElem hk, hv], fun m hm => by
      rw [List.getElem?_eq_getElem (by omega), Ne, Option.some.injEq]; exact hf m hm⟩
  · rintro ⟨hv, hf⟩
    obtain ⟨hk, hv⟩ := List.getElem?_eq_some_iff.mp hv
    exact ⟨hk, hv, fun m hm hm' => hf m hm (by rw [List.getElem?_eq_getElem (by omega), hm'])⟩

/-- A notification of an unclaimed line goes to the first filter that the line feeds, and to no other (log 18). -/
theorem routeDebounce_eq_some_iff {inputs : List LineId} {e : Notification} {i : Instr} :
    routeDebounce inputs e = some i ↔
      ∃ k : DiIdx, (inputs[k.val]? = some e.line ∧ ∀ m, m < k.val → inputs[m]? ≠ some e.line) ∧ i = .evDiIn k e.level := by
  unfold routeDebounce
  split
  · next k hk =>
    have hfirst := idxOf?_eq_some_iff_getElem?.mp hk
    split
    · next h =>
      constructor
      · intro hi; cases hi; exact ⟨⟨k, h⟩, hfirst, rfl⟩
      · rintro ⟨m, hm, rfl⟩
        have := idxOf?_eq_some_iff_getElem?.mpr hm
        rw [hk] at this
        cases this; rfl
    · next h =>
      simp only [reduceCtorEq, false_iff]
      rintro ⟨m, hm, rfl⟩
      have := idxOf?_eq_some_iff_getElem?.mpr hm
      rw [hk] at this
      cases this
      exact h m.isLt
  · next hk =>
    simp only [reduceCtorEq, false_iff]
    rintro ⟨m, hm, rfl⟩
    have := idxOf?_eq_some_iff_getElem?.mpr hm
    rw [hk] at this
    cases this

end Sys2Proof.Machine
end

