-- ==== Sys2Proof/Machine/Listing.lean ====
section
/-! DEFINITION. The assembly syntax of a step (30_encoding.md R315), and the source's attributes as operations (R316). Nothing
here enters a step. -/

namespace Sys2Proof.Machine

/-- `w<n>`: instance names are 1-based (R315). -/
def wName (n : WIdx) : String := "w" ++ toString (n.val + 1)

/-- `cd<n>`. -/
def cdName (j : CdIdx) : String := "cd" ++ toString (j.val + 1)

/-- `di<n>`. -/
def diName (k : DiIdx) : String := "di" ++ toString (k.val + 1)

/-- `'RD ' inst '.' REGNAME`. -/
def rdText (name reg : String) : String := "RD " ++ name ++ "." ++ reg

/-- `'WR ' inst '.' REGNAME ', ' value`, the value in decimal (log 19). -/
def wrText (name reg : String) (v : Word) : String := "WR " ++ name ++ "." ++ reg ++ ", " ++ toString v.toNat

/-- A level: 1 is electrical high. -/
def levelText (level : Bool) : String := if level then "1" else "0"

/-- `op` of the syntax (R315); `v` is WDATA. -/
def opText (v : Word) : Instr → String
  | .wrWEnabled n => wrText (wName n) "ENABLED" v
  | .rdWEnabled n => rdText (wName n) "ENABLED"
  | .rdWDataTs n => rdText (wName n) "DATA_TS"
  | .rdWDataBits n => rdText (wName n) "DATA_BITS"
  | .rdWDataWord n => rdText (wName n) "DATA_WORD"
  | .rdWNoise n => rdText (wName n) "NOISE"
  | .rdWItvlMin n => rdText (wName n) "PULSE_ITVL_MIN"
  | .wrWItvlMin n => wrText (wName n) "PULSE_ITVL_MIN" v
  | .rdWItvlMax n => rdText (wName n) "PULSE_ITVL_MAX"
  | .wrWItvlMax n => wrText (wName n) "PULSE_ITVL_MAX" v
  | .rdWWidthMin n => rdText (wName n) "PULSE_WIDTH_MIN"
  | .wrWWidthMin n => wrText (wName n) "PULSE_WIDTH_MIN" v
  | .rdWWidthMax n => rdText (wName n) "PULSE_WIDTH_MAX"
  | .wrWWidthMax n => wrText (wName n) "PULSE_WIDTH_MAX" v
  | .evWD0 n l => "EV " ++ wName n ++ ".D0 " ++ levelText l
  | .evWD1 n l => "EV " ++ wName n ++ ".D1 " ++ levelText l
  | .wrCdEnabled j => wrText (cdName j) "ENABLED" v
  | .rdCdEnabled j => rdText (cdName j) "ENABLED"
  | .rdCdDataTs j => rdText (cdName j) "DATA_TS"
  | .rdCdDataBits j => rdText (cdName j) "DATA_BITS"
  | .rdCdDataWord j => rdText (cdName j) "DATA_WORD"
  | .rdCdNoise j => rdText (cdName j) "NOISE"
  | .rdCdPeriodMin j => rdText (cdName j) "CLOCK_PERIOD_MIN"
  | .wrCdPeriodMin j => wrText (cdName j) "CLOCK_PERIOD_MIN" v
  | .rdCdPeriodMax j => rdText (cdName j) "CLOCK_PERIOD_MAX"
  | .wrCdPeriodMax j => wrText (cdName j) "CLOCK_PERIOD_MAX" v
  | .evCdClk j d => "EV " ++ cdName j ++ ".CLK data=" ++ levelText d
  | .rdDiDeb k => rdText (diName k) "DEB"
  | .rdDiOnMs k => rdText (diName k) "DEB_ON_MS"
  | .wrDiOnMs k => wrText (diName k) "DEB_ON_MS" v
  | .rdDiOffMs k => rdText (diName k) "DEB_OFF_MS"
  | .wrDiOffMs k => wrText (diName k) "DEB_OFF_MS" v
  | .rdDiOnCnt k => rdText (diName k) "DEB_ON_CNT"
  | .rdDiOffCnt k => rdText (diName k) "DEB_OFF_CNT"
  | .evDiIn k l => "EV " ++ diName k ++ ".IN " ++ levelText l
  | .sysExpire k l => "SYS " ++ diName k ++ ".EXPIRE " ++ levelText l
  | .sysReset => "SYS RESET"

/-- `status` of the syntax (R315). -/
def statusText : Status → String
  | .ok => "OK"
  | .busy => "BUSY"
  | .inval => "INVAL"
  | .nodev => "NODEV"
  | .decErr => "DECERR"

/-- `' -> ' status [ ' ' value ]`: the value of an OK read is shown (R315). -/
def respText (isRead : Bool) (r : Option Response) : String :=
  match r with
  | none => ""
  | some a =>
    " -> " ++ statusText a.status
      ++ (if isRead ∧ a.status = .ok then " " ++ toString a.value.toNat else "")

/-- `line` of the syntax (R315): one step with its `now`, its operand and its response. -/
def lineText (t : Micros) (i : Instr) (v : Word) (r : Option Response) : String :=
  "@" ++ toString t.toNat ++ " " ++ opText v i ++ respText (decide ((kindOf (encode i)).toNat = 0)) r

/-- The source's attributes (R316). -/
inductive Attribute where
  | readEnabled (id : Owner)
  | writeEnabled (id : Owner)
  | readData (id : Owner)
  | readNoise (id : Owner)
  | pulseItvlMin (n : WIdx)
  | pulseItvlMax (n : WIdx)
  | pulseWidthMin (n : WIdx)
  | pulseWidthMax (n : WIdx)
  | clockPeriodMin (j : CdIdx)
  | clockPeriodMax (j : CdIdx)
  | deb (k : DiIdx)
  | debOnMs (k : DiIdx)
  | debOffMs (k : DiIdx)
  | debOnCnt (k : DiIdx)
  | debOffCnt (k : DiIdx)
  deriving DecidableEq, Repr

/-- The operations an attribute maps onto (R316). Of `readData`, the reads after the first are issued only when the first answers
OK (44_snapshot.md R711). Of a read and write attribute, the read stands first and the write second. -/
def Attribute.ops : Attribute → List Instr
  | .readEnabled (.w n) => [.rdWEnabled n]
  | .readEnabled (.cd j) => [.rdCdEnabled j]
  | .writeEnabled (.w n) => [.wrWEnabled n]
  | .writeEnabled (.cd j) => [.wrCdEnabled j]
  | .readData (.w n) => [.rdWDataTs n, .rdWDataBits n, .rdWDataWord n]
  | .readData (.cd j) => [.rdCdDataTs j, .rdCdDataBits j, .rdCdDataWord j]
  | .readNoise (.w n) => [.rdWNoise n]
  | .readNoise (.cd j) => [.rdCdNoise j]
  | .pulseItvlMin n => [.rdWItvlMin n, .wrWItvlMin n]
  | .pulseItvlMax n => [.rdWItvlMax n, .wrWItvlMax n]
  | .pulseWidthMin n => [.rdWWidthMin n, .wrWWidthMin n]
  | .pulseWidthMax n => [.rdWWidthMax n, .wrWWidthMax n]
  | .clockPeriodMin j => [.rdCdPeriodMin j, .wrCdPeriodMin j]
  | .clockPeriodMax j => [.rdCdPeriodMax j, .wrCdPeriodMax j]
  | .deb k => [.rdDiDeb k]
  | .debOnMs k => [.rdDiOnMs k, .wrDiOnMs k]
  | .debOffMs k => [.rdDiOffMs k, .wrDiOffMs k]
  | .debOnCnt k => [.rdDiOnCnt k]
  | .debOffCnt k => [.rdDiOffCnt k]

/-- The error a status becomes at the attribute layer (R316); DECERR has none, since no attribute names an absent register. -/
inductive Errno where
  | ebusy
  | einval
  | enodev
  deriving DecidableEq, Repr

/-- The "status to error" column of R316. -/
def Status.errno : Status → Option Errno
  | .ok => none
  | .busy => some .ebusy
  | .inval => some .einval
  | .nodev => some .enodev
  | .decErr => none

end Sys2Proof.Machine
end

