-- ==== Sys2Proof/Tests/Slice0.lean ====
section
/-! SUPPORT. Tests: what the well-formedness checks refuse, words written out from the encoding, one or two single steps per
operation with the results of the rules' own examples and of 95_test_vectors.md, and for each statement with hypotheses a
concrete state that meets them. -/

namespace Sys2Proof.Tests

open Sys2Proof Sys2Proof.Machine

/-! ## Helpers -/

/-- The example configuration a while after reset: no step is the first one any more. -/
def base : State := { State.reset with fresh := false }

/-- W[0] enabled, with its lines claimed. -/
def onW : State := { base with w1 := { base.w1 with enabled := true }, claim := [(0, .w 0), (1, .w 0)] }

/-- CD[0] enabled, with its lines claimed. -/
def onCd : State := { base with cd1 := { base.cd1 with enabled := true }, claim := [(0, .cd 0), (1, .cd 0)] }

/-- DEB[0] with its timer armed for level 1 at 50000, at `now` = 1000. -/
def armed : State := { base with deb := [{ Debounce.reset Config.vectors with pend := .armed true 50000 },
    Debounce.reset Config.vectors], now := 1000 }

/-- The next state, if there is one. -/
def nextOf (o : Host.Outcome State Fault Refusal) : Option State :=
  match o with
  | .next t => some t
  | _ => none

/-- One step with this descriptor, WDATA and time. -/
def one (s : State) (d : Descriptor) (v : Word) (t : Micros) : Option State :=
  nextOf (step (s.present ⟨d, v, t, []⟩))

/-- The response of one step with this descriptor, WDATA and time. -/
def reply (s : State) (d : Descriptor) (v : Word) (t : Micros) : Option Response := (one s d v t).bind State.resp

/-- The reason a step is refused. -/
def refusalOf (s : State) (d : Descriptor) (t : Micros) : Option Refusal :=
  match step (s.present ⟨d, 0, t, []⟩) with
  | .refused r => some r
  | _ => none

/-! ## Well-formedness (the smoke tests: each check refuses an ill-formed term) -/

theorem test_wf_refuses_absent_filter_reads :
    Instr.wf 2 (.rdDiDeb 2) = false ∧ Instr.wf 2 (.rdDiOnMs 2) = false ∧ Instr.wf 2 (.rdDiOffMs 2) = false ∧
    Instr.wf 2 (.rdDiOnCnt 2) = false ∧ Instr.wf 2 (.rdDiOffCnt 2) = false := by decide

theorem test_wf_refuses_absent_filter_writes_and_events :
    Instr.wf 2 (.wrDiOnMs 2) = false ∧ Instr.wf 2 (.wrDiOffMs 2) = false ∧ Instr.wf 2 (.evDiIn 2 true) = false ∧
    Instr.wf 2 (.sysExpire 2 false) = false ∧ Instr.wf 64 (.rdDiDeb 63) = true := by decide

theorem test_wf_refuses_one_line_twice : LinePair.wf ⟨3, 3⟩ = false ∧ LinePair.wf ⟨3, 4⟩ = true := by decide

theorem test_wf_refuses_filter_counts :
    Config.wf { Config.vectors with nDi := 0 } = false ∧ Config.wf { Config.vectors with nDi := 65 } = false ∧
    Config.wf { Config.vectors with nDi := 64 } = true := by decide

theorem test_wf_refuses_line_maps :
    Config.wf { Config.vectors with w1Lines := ⟨7, 7⟩ } = false ∧ Config.wf { Config.vectors with w2Lines := ⟨7, 7⟩ } = false ∧
    Config.wf { Config.vectors with cd1Lines := ⟨7, 7⟩ } = false ∧ Config.wf { Config.vectors with cd2Lines := ⟨7, 7⟩ } = false := by
  decide

theorem test_wf_refuses_a_late_time :
    timeFits 0xFFFFFC0000000000 = false ∧ timeFits 0xFFFFFBFFFFFFFFFF = true ∧
    Config.wf { Config.vectors with tReset := 0xFFFFFC0000000000 } = false := by decide

theorem test_wf_refuses_a_disordered_claim_table :
    claimWf [(1, .w 0), (0, .w 0)] = false ∧ claimWf [(1, .w 0), (1, .w 1)] = false ∧ claimWf [(0, .w 0), (1, .w 0)] = true := by
  decide

/-! ## Decoding: a word for every operation, written out from 30_encoding.md R301 and R310 -/

-- {KIND, reserved, UNIT, INST, low}, bit by bit, one of each kind and unit
theorem test_decode_bit_by_bit :
    decode 2 0b01_000000000000000000_00_000001_0000 = .ok (.wrWEnabled 1) ∧
    decode 2 0b00_000000000000000000_01_000001_0001 = .ok (.rdCdDataTs 1) ∧
    decode 2 0b01_000000000000000000_10_000001_0010 = .ok (.wrDiOffMs 1) ∧
    decode 2 0b10_000000000000000000_00_000000_0101 = .ok (.evWD1 0 true) ∧
    decode 2 0b10_000000000000000000_01_000001_0010 = .ok (.evCdClk 1 true) ∧
    decode 2 0b10_000000000000000000_10_000001_0001 = .ok (.evDiIn 1 true) ∧
    decode 2 0b11_000000000000000000_10_000001_0001 = .ok (.sysExpire 1 true) ∧
    decode 2 0b11_000000000000000000_11_000000_1111 = .ok .sysReset := by decide

theorem test_decode_wiegand_rows :
    decode 2 0x40000010 = .ok (.wrWEnabled 1) ∧ decode 2 0x00000010 = .ok (.rdWEnabled 1) ∧
    decode 2 0x00000011 = .ok (.rdWDataTs 1) ∧ decode 2 0x00000012 = .ok (.rdWDataBits 1) ∧
    decode 2 0x00000013 = .ok (.rdWDataWord 1) ∧ decode 2 0x00000014 = .ok (.rdWNoise 1) ∧
    decode 2 0x00000015 = .ok (.rdWItvlMin 1) ∧ decode 2 0x40000015 = .ok (.wrWItvlMin 1) ∧
    decode 2 0x00000016 = .ok (.rdWItvlMax 1) ∧ decode 2 0x40000016 = .ok (.wrWItvlMax 1) ∧
    decode 2 0x00000017 = .ok (.rdWWidthMin 1) ∧ decode 2 0x40000017 = .ok (.wrWWidthMin 1) ∧
    decode 2 0x00000018 = .ok (.rdWWidthMax 1) ∧ decode 2 0x40000018 = .ok (.wrWWidthMax 1) ∧
    decode 2 0x80000011 = .ok (.evWD0 1 true) ∧ decode 2 0x80000014 = .ok (.evWD1 1 false) := by decide

theorem test_decode_clock_data_rows :
    decode 2 0x40000410 = .ok (.wrCdEnabled 1) ∧ decode 2 0x00000410 = .ok (.rdCdEnabled 1) ∧
    decode 2 0x00000411 = .ok (.rdCdDataTs 1) ∧ decode 2 0x00000412 = .ok (.rdCdDataBits 1) ∧
    decode 2 0x00000413 = .ok (.rdCdDataWord 1) ∧ decode 2 0x00000414 = .ok (.rdCdNoise 1) ∧
    decode 2 0x00000415 = .ok (.rdCdPeriodMin 1) ∧ decode 2 0x40000415 = .ok (.wrCdPeriodMin 1) ∧
    decode 2 0x00000416 = .ok (.rdCdPeriodMax 1) ∧ decode 2 0x40000416 = .ok (.wrCdPeriodMax 1) ∧
    decode 2 0x80000412 = .ok (.evCdClk 1 true) := by decide

theorem test_decode_debounce_and_system_rows :
    decode 64 0x00000BF0 = .ok (.rdDiDeb 63) ∧ decode 64 0x00000BF1 = .ok (.rdDiOnMs 63) ∧
    decode 64 0x40000BF1 = .ok (.wrDiOnMs 63) ∧ decode 64 0x00000BF2 = .ok (.rdDiOffMs 63) ∧
    decode 64 0x40000BF2 = .ok (.wrDiOffMs 63) ∧ decode 64 0x00000BF3 = .ok (.rdDiOnCnt 63) ∧
    decode 64 0x00000BF4 = .ok (.rdDiOffCnt 63) ∧ decode 64 0x80000BF1 = .ok (.evDiIn 63 true) ∧
    decode 64 0xC0000BF1 = .ok (.sysExpire 63 true) ∧ decode 64 0xC0000C0F = .ok .sysReset := by decide

-- 95_test_vectors.md V2.2
theorem test_decode_decerr :
    decode 2 0x00000020 = .error .decErr ∧ decode 2 0x00000009 = .error .decErr ∧ decode 2 0x0000000F = .error .decErr ∧
    decode 2 0x40000001 = .error .decErr ∧ decode 2 0x40000004 = .error .decErr ∧ decode 2 0x00000407 = .error .decErr ∧
    decode 2 0x40000403 = .error .decErr ∧ decode 2 0x00000C00 = .error .decErr ∧ decode 2 0x00001000 = .error .decErr ∧
    decode 2 0x40001005 = .error .decErr ∧ decode 2 0x00000820 = .error .decErr ∧ decode 2 0x00000420 = .error .decErr := by
  decide

-- 95_test_vectors.md V2.3
theorem test_decode_refused :
    decode 2 0x80000401 = .error .noSuchOperation ∧ decode 2 0x80000008 = .error .noSuchOperation ∧
    decode 2 0x80000802 = .error .noSuchOperation ∧ decode 2 0x80000C00 = .error .noSuchOperation ∧
    decode 2 0x80000020 = .error .noSuchOperation ∧ decode 2 0xC0000802 = .error .noSuchOperation ∧
    decode 2 0xC0000000 = .error .noSuchOperation ∧ decode 2 0x80001000 = .error .noSuchOperation := by decide

-- No descriptor matches two rows of R310: two rows differ in a bit that both fix.
theorem test_rows_do_not_overlap :
    opcodeRows.Pairwise (fun a b => (a.pattern ^^^ b.pattern) &&& (a.mask &&& b.mask) ≠ 0) := by decide

theorem test_table_word : decodeTableWord 32 0x80000004 = some (.evWD1 0 false) ∧ decodeTableWord 32 0x80000008 = none := by
  decide

/-! ## Reset -/

theorem test_reset_configuration : Config.vectors.wf = true ∧ claimWf State.reset.claim = true ∧ State.reset.deb.length = 2 := by
  decide

-- R900: RD w1.ENABLED -> OK 0, RD di1.DEB -> OK 2, RD w1.NOISE -> OK 0
theorem test_reads_after_reset :
    reply State.reset 0x00000000 0 0 = some ⟨.ok, 0⟩ ∧ reply State.reset 0x00000800 0 0 = some ⟨.ok, 2⟩ ∧
    reply State.reset 0x00000004 0 0 = some ⟨.ok, 0⟩ := by decide

theorem test_fetched_word_runs :
    (nextOf (step (State.reset.withFetchWord 32 0x00000005))).bind State.resp = some ⟨.ok, 1200⟩ := by decide

/-! ## Steps of the Wiegand unit -/

-- R410
theorem test_wrWEnabled : (one base 0x40000000 1 0).map (fun t => (t.w1.enabled, t.claim, t.resp))
    = some (true, [(0, .w 0), (1, .w 0)], some ⟨.ok, 0⟩) := by decide
theorem test_wrWEnabled_busy_inval_off :
    reply onCd 0x40000000 1 0 = some ⟨.busy, 0⟩ ∧ reply onW 0x40000000 2 0 = some ⟨.inval, 0⟩ ∧
    (one onW 0x40000000 0 0).map State.claim = some [] := by decide
-- R411
theorem test_rdWEnabled : reply onW 0x00000000 0 0 = some ⟨.ok, 1⟩ := by decide
-- R702: after Scenario A, busy at 4000 and captured at 4001
theorem test_rdWDataTs_busy_until_4000 :
    reply { onW with w1 := { onW.w1 with lastBitTs := 1300, bitCount := 2, word := 1 } } 0x00000001 0 4000 = some ⟨.busy, 0⟩ ∧
    reply onW 0x00000011 0 4000 = some ⟨.nodev, 0⟩ := by decide
theorem test_rdWDataTs_captures_at_4001 :
    (one { onW with w1 := { onW.w1 with lastBitTs := 1300, bitCount := 2, word := 1 } } 0x00000001 0 4001).map
      (fun t => (t.resp, t.w1.snapTs, t.w1.snapBits, t.w1.snapWord)) = some (some ⟨.ok, 1300⟩, 1300, 2, 1) := by decide
-- R703, R704
theorem test_rdWDataBits : reply { base with w2 := { base.w2 with snapBits := 64, bitCount := 3 } } 0x00000012 0 0 = some ⟨.ok, 64⟩ := by
  decide
theorem test_rdWDataWord :
    reply { base with w2 := { base.w2 with snapWord := 0x8000000000000001, word := 3 } } 0x00000013 0 0 = some ⟨.ok, 0x8000000000000001⟩ := by
  decide
-- R705: OK 2, and then the code is cleared
theorem test_rdWNoise : (one { onW with w1 := { onW.w1 with noise := .pulseTooEarly } } 0x00000004 0 900).map
    (fun t => (t.resp, t.w1.noise)) = some (some ⟨.ok, 2⟩, .none) := by decide
-- R412 to R419, with the reset values of the example configuration
theorem test_rdWThresholds :
    reply base 0x00000015 0 0 = some ⟨.ok, 1200⟩ ∧ reply base 0x00000016 0 0 = some ⟨.ok, 2700⟩ ∧
    reply base 0x00000017 0 0 = some ⟨.ok, 10⟩ ∧ reply base 0x00000018 0 0 = some ⟨.ok, 150⟩ := by decide
theorem test_wrWThresholds :
    (one base 0x40000015 0xFFFFFFFFFFFFFFFF 0).map (fun t => t.w2.itvlMin) = some 0xFFFFFFFFFFFFFFFF ∧
    (one base 0x40000016 5 0).map (fun t => t.w2.itvlMax) = some 5 ∧
    (one base 0x40000017 6 0).map (fun t => t.w2.widthMin) = some 6 ∧
    (one base 0x40000018 7 0).map (fun t => t.w2.widthMax) = some 7 := by decide
-- R420: the rising edge of D0 at 50 gives bitCount 1, word 0
theorem test_evWD0_accepts :
    (one { onW with w1 := { onW.w1 with wasLowD0 := true, activeLine := some .d0 } } 0x80000001 0 50).map
      (fun t => (t.w1.bitCount, t.w1.word, t.w1.activeLine, t.resp)) = some (1, 0, none, none) := by decide
-- Scenario B: a falling edge of D1 at 900 after one at 0 is too early
theorem test_evWD0_too_early : (one { onW with w1 := { onW.w1 with bitCount := 1 } } 0x80000000 0 900).map
    (fun t => (t.w1.noise, t.w1.bitCount, t.w1.wasLowD0)) = some (.pulseTooEarly, 0, true) := by decide
-- R421: the rising edge of D1 at 1360 gives bitCount 2, word 0b01
theorem test_evWD1_accepts :
    (one { onW with w1 := { onW.w1 with wasLowD1 := true, activeLine := some .d1, bitCount := 1, lastBitTs := 1300 } }
      0x80000005 0 1360).map (fun t => (t.w1.bitCount, t.w1.word)) = some (2, 1) := by decide
-- R420's corner case: a falling edge after a timeout still fails CONCURRENT_LINES
theorem test_evWD1_concurrent :
    (one { onW with w1 := { onW.w1 with wasLowD0 := true, activeLine := some .d0, bitCount := 1 } } 0x80000004 0 2701).map
      (fun t => (t.w1.noise, t.w1.activeLine)) = some (.concurrentLines, none) := by decide

/-! ## Steps of the clock-data unit -/

-- R510
theorem test_wrCdEnabled : (one base 0x40000400 1 0).map (fun t => (t.cd1.enabled, t.claim)) = some (true, [(0, .cd 0), (1, .cd 0)]) := by
  decide
theorem test_wrCdEnabled_busy_inval_off :
    reply onW 0x40000400 1 0 = some ⟨.busy, 0⟩ ∧ reply onCd 0x40000400 0xFFFFFFFFFFFFFFFF 0 = some ⟨.inval, 0⟩ ∧
    (one onCd 0x40000400 0 0).map State.claim = some [] := by decide
-- R511
theorem test_rdCdEnabled : reply onCd 0x00000400 0 0 = some ⟨.ok, 1⟩ := by decide
-- R706: after Scenario C, busy at 5100 and captured at 5101
theorem test_rdCdDataTs_busy_until_5100 :
    reply { onCd with cd1 := { onCd.cd1 with lastClockTs := 3500 } } 0x00000401 0 5100 = some ⟨.busy, 0⟩ := by decide
theorem test_rdCdDataTs_captures_at_5101 :
    (one { onCd with cd1 := { onCd.cd1 with lastClockTs := 3500, bitCount := 8, word := 0xAA } } 0x00000401 0 5101).map
      (fun t => (t.resp, t.cd1.snapTs, t.cd1.snapBits, t.cd1.snapWord)) = some (some ⟨.ok, 3500⟩, 3500, 8, 0xAA) := by decide
-- R707, R708
theorem test_rdCdDataBits : reply { base with cd2 := { base.cd2 with snapBits := 8 } } 0x00000412 0 0 = some ⟨.ok, 8⟩ := by decide
theorem test_rdCdDataWord : reply { base with cd2 := { base.cd2 with snapWord := 0xAA } } 0x00000413 0 0 = some ⟨.ok, 0xAA⟩ := by
  decide
-- R709
theorem test_rdCdNoise : (one { onCd with cd1 := { onCd.cd1 with noise := .clockTooEarly } } 0x00000404 0 0).map
    (fun t => (t.resp, t.cd1.noise)) = some (some ⟨.ok, 6⟩, .none) := by decide
-- R512 to R515
theorem test_rdCdThresholds : reply base 0x00000405 0 0 = some ⟨.ok, 400⟩ ∧ reply base 0x00000406 0 0 = some ⟨.ok, 1600⟩ := by decide
theorem test_wrCdThresholds :
    (one base 0x40000415 9 0).map (fun t => t.cd2.periodMin) = some 9 ∧
    (one base 0x40000416 0x100000000 0).map (fun t => t.cd2.periodMax) = some 0x100000000 := by decide
-- R516: data 0 gives bitCount 1, word 1, lastClockTs of the edge
theorem test_evCdClk_samples_inverted : (one onCd 0x80000400 0 7).map (fun t => (t.cd1.bitCount, t.cd1.word, t.cd1.lastClockTs))
    = some (1, 1, 7) := by decide
theorem test_evCdClk_too_early :
    (one { onCd with cd1 := { onCd.cd1 with bitCount := 3, word := 5, lastClockTs := 100 } } 0x80000402 0 499).map
      (fun t => (t.cd1.noise, t.cd1.bitCount, t.cd1.word, t.cd1.lastClockTs)) = some (.clockTooEarly, 0, 0, 100) := by decide

/-! ## Steps of the debounce unit and the block reset -/

-- R610, R611, R613, R615, R616
theorem test_rdDiDeb : reply { base with deb := [{ Debounce.reset Config.vectors with settled := .on }] } 0x00000800 0 0 = some ⟨.ok, 1⟩ := by
  decide
theorem test_rdDiOnMs_rdDiOffMs :
    reply { base with deb := [{ Debounce.reset Config.vectors with holdOnMs := 0xFFFFFFFF, holdOffMs := 20 }] } 0x00000801 0 0
      = some ⟨.ok, 0xFFFFFFFF⟩ ∧ reply base 0x00000802 0 0 = some ⟨.ok, 50⟩ := by decide
theorem test_rdDiOnCnt_rdDiOffCnt :
    reply { base with deb := [{ Debounce.reset Config.vectors with onCnt := 3, offCnt := 2 }] } 0x00000803 0 0 = some ⟨.ok, 3⟩ ∧
    reply { base with deb := [{ Debounce.reset Config.vectors with onCnt := 3, offCnt := 2 }] } 0x00000804 0 0 = some ⟨.ok, 2⟩ := by
  decide
-- R612, R614
theorem test_wrDiOnMs : (one armed 0x40000801 20 1000).bind (fun t => t.deb[0]?) = some ⟨20, 50, .undef, 0, 0, .idle⟩ := by decide
theorem test_wrDiOffMs :
    (one armed 0x40000802 30 1000).bind (fun t => t.deb[0]?) = some ⟨50, 30, .undef, 0, 0, .idle⟩ ∧
    reply armed 0x40000802 0x100000000 1000 = some ⟨.inval, 0⟩ := by decide
-- R617: the event leaves pend = ARMED(1, 50000)
theorem test_evDiIn : (one base 0x80000801 0 0).bind (fun t => t.deb[0]?.map Debounce.pend) = some (.armed true 50000) := by decide
-- R618: settled 1, onCnt 1, pend NONE
theorem test_sysExpire : (one armed 0xC0000801 0 50000).bind (fun t => t.deb[0]?) = some ⟨50, 50, .on, 1, 0, .idle⟩ := by decide
theorem test_sysExpire_other_level : (one armed 0xC0000800 0 50000).bind (fun t => t.deb[0]?) = some ⟨50, 50, .undef, 0, 0, .idle⟩ := by
  decide
-- R900
theorem test_sysReset : (one onW 0xC0000C0F 0 77).map (fun t => (t.w1, t.claim, t.fresh, t.now))
    = some (Wiegand.reset Config.vectors, [], true, 0) := by decide

/-! ## Refusals -/

-- 95_test_vectors.md V5.8 and R602
theorem test_refused_by_the_deadline :
    refusalOf armed 0xC0000801 49999 = some .expireNotDue ∧ refusalOf armed 0xC0000811 1000 = some .expireNotDue ∧
    refusalOf armed 0x80000801 50000 = some .filterDue ∧ refusalOf armed 0x00000800 50000 = some .filterDue ∧
    refusalOf armed 0x00000000 50001 = some .pastDeadline := by decide

theorem test_not_refused_beside_the_deadline :
    (one armed 0x80000811 0 50000).isSome = true ∧ (one armed 0x00000000 0 50000).isSome = true ∧
    (one armed 0x00000805 0 50000).isSome = true := by decide

-- R814, and R313 for the last
theorem test_refused_by_the_time_base :
    refusalOf armed 0x00000000 999 = some .timeDecreased ∧ refusalOf State.reset 0x00000000 1 = some .notAtTReset ∧
    refusalOf base 0x00000000 0xFFFFFC0000000000 = some .timeBaseExhausted ∧ refusalOf base 0x80001000 0 = some .notAnOperation := by
  decide

/-! ## Routing and listing -/

theorem test_route :
    onW.route [9] ⟨0, false, false, true⟩ = some (.evWD0 0 false) ∧ onW.route [9] ⟨1, true, true, true⟩ = some (.evWD1 0 true) ∧
    onCd.route [9] ⟨0, true, true, true⟩ = some (.evCdClk 0 true) ∧ onCd.route [9] ⟨0, false, false, true⟩ = none ∧
    onCd.route [9] ⟨1, true, true, true⟩ = none ∧ base.route [8, 9] ⟨9, true, true, true⟩ = some (.evDiIn 1 true) := by decide

-- R410's and R702's examples
theorem test_listing :
    lineText 0 (.wrWEnabled 0) 1 (some ⟨.ok, 0⟩) = "@0 WR w1.ENABLED, 1 -> OK" ∧
    lineText 4001 (.rdWDataTs 0) 0 (some ⟨.ok, 1300⟩) = "@4001 RD w1.DATA_TS -> OK 1300" ∧
    lineText 50000 (.sysExpire 0 true) 0 none = "@50000 SYS di1.EXPIRE 1" := by decide

theorem test_status_numbers :
    Status.ok.code = 0 ∧ Status.busy.code = 1 ∧ Status.inval.code = 2 ∧ Status.nodev.code = 3 ∧ Status.decErr.code = 4 ∧
    Status.busy.errno = some .ebusy ∧ Status.inval.errno = some .einval ∧ Status.nodev.errno = some .enodev := by decide

/-! ## Witnesses: for each statement with hypotheses, a concrete state that meets them, clause by clause -/

/-- `base` with these steps to come. -/
def coming (s : State) (xs : List StepInput) : State := { s with inputs := xs }

/-- A step with this descriptor at this time. -/
def at_ (d : Descriptor) (t : Micros) : StepInput := ⟨d, 0, t, []⟩

theorem witness_EncodeThenDecodeIsIdentity : Instr.wf 2 (.sysExpire 1 true) = true ∧ Instr.wf 64 (.rdDiOffCnt 63) = true := by decide

theorem witness_DecodeThenEncodeIsIdentity : decode 64 0xC0000BF1 = .ok (.sysExpire 63 true) := by decide

theorem witness_ReservedBitsAreNeverLegal :
    decode 2 0xC0000C0F = .ok .sysReset ∧
    ((0x60000000 : Descriptor).extractLsb' 12 18 ≠ 0 ∧ ((0x60000000 : Descriptor).extractLsb' 30 2).toNat < 2) ∧
    ((0x80001000 : Descriptor).extractLsb' 12 18 ≠ 0 ∧ 2 ≤ ((0x80001000 : Descriptor).extractLsb' 30 2).toNat) := by decide

theorem witness_StepRunsTheDecodedOperation :
    (coming armed [at_ 0xC0000801 50000]).inputs = at_ 0xC0000801 50000 :: [] ∧
    (coming armed [at_ 0xC0000801 50000]).refusalByTime (at_ 0xC0000801 50000) = none ∧
    decode 2 0xC0000801 = .ok (.sysExpire 0 true) ∧ Instr.wf 2 (.sysExpire 0 true) = true := by decide

theorem witness_UnnamedRegisterAnswersDecErr :
    ((coming base [at_ 0x00000009 0]).refusalByTime (at_ 0x00000009 0) = none ∧ (kindOf 0x00000009).toNat < 2 ∧ matchesRow 2 0x00000009 = false) ∧
    (reservedOf 0x60000000 ≠ 0 ∧ unitOf 0x00000FFF = 3 ∧ (kindOf 0x60000000).toNat < 2 ∧ (kindOf 0x00000FFF).toNat < 2) ∧
    (unitOf 0x00000020 = 0 ∧ 2 ≤ (instOf 0x00000020).toNat) ∧ (unitOf 0x00000009 = 0 ∧ 9 ≤ (lowOf 0x00000009).toNat) ∧
    (unitOf 0x00000420 = 1 ∧ 2 ≤ (instOf 0x00000420).toNat) ∧ (unitOf 0x00000407 = 1 ∧ 7 ≤ (lowOf 0x00000407).toNat) ∧
    (unitOf 0x00000820 = 2 ∧ 2 ≤ (instOf 0x00000820).toNat) ∧ (unitOf 0x00000805 = 2 ∧ 5 ≤ (lowOf 0x00000805).toNat) ∧
    ((kindOf 0x40000404).toNat = 1 ∧ unitOf 0x40000404 ≠ 2 ∧ 1 ≤ (lowOf 0x40000404).toNat ∧ (lowOf 0x40000404).toNat ≤ 4) ∧
    ((kindOf 0x40000800).toNat = 1 ∧ unitOf 0x40000800 = 2 ∧ (lowOf 0x40000800).toNat = 0) ∧
    ((kindOf 0x40000803).toNat = 1 ∧ unitOf 0x40000803 = 2 ∧ 3 ≤ (lowOf 0x40000803).toNat) := by decide

theorem witness_UnnamedEventIsRefused :
    ((coming base [at_ 0x80000002 0]).refusalByTime (at_ 0x80000002 0) = none ∧ 2 ≤ (kindOf 0x80000002).toNat ∧ matchesRow 2 0x80000002 = false) ∧
    (reservedOf 0x80001000 ≠ 0 ∧ 2 ≤ (kindOf 0x80001000).toNat) ∧
    ((kindOf 0x80000C00).toNat = 2 ∧ unitOf 0x80000C00 = 3) ∧
    ((kindOf 0x80000008).toNat = 2 ∧ unitOf 0x80000008 = 0 ∧ (lowOf 0x80000008)[3] = true) ∧
    ((kindOf 0x80000002).toNat = 2 ∧ unitOf 0x80000002 = 0 ∧ (lowOf 0x80000002)[1] = true) ∧
    ((kindOf 0x80000404).toNat = 2 ∧ unitOf 0x80000404 = 1 ∧ (lowOf 0x80000404).extractLsb' 2 2 ≠ 0) ∧
    ((kindOf 0x80000401).toNat = 2 ∧ unitOf 0x80000401 = 1 ∧ (lowOf 0x80000401)[0] = true) ∧
    ((kindOf 0x80000804).toNat = 2 ∧ unitOf 0x80000804 = 2 ∧ (lowOf 0x80000804).extractLsb' 2 2 ≠ 0) ∧
    ((kindOf 0x80000802).toNat = 2 ∧ unitOf 0x80000802 = 2 ∧ (lowOf 0x80000802)[1] = true) ∧
    ((kindOf 0xC0000802).toNat = 3 ∧ ¬ (unitOf 0xC0000802 = 2 ∧ (lowOf 0xC0000802).extractLsb' 1 3 = 0) ∧
      (0xC0000802 : Descriptor) ≠ 0xC0000C0F) := by decide

theorem witness_TimeBaseIsAdmittedOrRefused :
    (armed.fresh = false ∧ (at_ 0x00000000 999).now < armed.now) ∧
    2 ^ 64 ≤ (at_ 0x00000000 0xFFFFFC0000000000).now.toNat + 2 ^ 42 ∧
    (State.reset.fresh = true ∧ (at_ 0x00000000 1).now ≠ State.reset.cfg.tReset) ∧
    (∃ t, step (coming armed [at_ 0x00000000 1000]) = .next t) :=
  ⟨by decide, by decide, by decide, _, rfl⟩

theorem witness_ExpiryRunsAtItsDeadline :
    armed.filter 0 = some { Debounce.reset Config.vectors with pend := .armed true 50000 } ∧ (0 : DiIdx).val < armed.cfg.nDi ∧
    (at_ 0xC0000801 50000).desc = encode (.sysExpire 0 true) ∧ (50000 : Micros).toNat + 2 ^ 42 < 2 ^ 64 ∧ armed.now ≤ 50000 ∧
    (50000 : Micros) < 50001 ∧ (at_ 0x80000801 50000).desc = encode (.evDiIn 0 true) ∧
    (at_ 0x00000804 50000).desc = hrd 2 0 4 ∧ (at_ 0x40000800 50000).desc = hwr 2 0 0 ∧
    (at_ 0xC0000801 49999).now ≠ 50000 ∧
    (armed.filter 1).map Debounce.pend = some .idle ∧ (at_ 0xC0000810 1000).desc = encode (.sysExpire 1 false) := by decide

theorem witness_ExpiryRunsAtItsDeadline_no_earlier_deadline :
    ∀ e ∈ armed.deb, ∀ M due, e.pend = .armed M due → (50000 : Micros) ≤ due := by
  intro e he M due hp
  simp only [armed, List.mem_cons, List.not_mem_nil, or_false] at he
  rcases he with rfl | rfl
  · cases hp; exact BitVec.le_refl _
  · cases hp

theorem witness_StepIsRefusedExactlyWhenNotAdmitted :
    armed.deb.length = armed.cfg.nDi ∧ step (coming armed [at_ 0xC0000801 49999]) = .refused .expireNotDue := ⟨by decide, rfl⟩

/-- A step at the deadline that touches another filter, and one that touches the filter itself: the boundary of R602 (c). -/
theorem witness_StepIsRefusedExactlyWhenNotAdmitted_timeAdmits :
    armed.refusalByTime (at_ 0x80000811 50000) = none ∧ TouchesFilter 1 0x80000811 ∧
    armed.refusalByTime (at_ 0x80000801 50000) ≠ none ∧ TouchesFilter 0 0x80000801 ∧ TouchesFilter 63 0x40000BF4 :=
  ⟨by decide, ⟨1, by decide⟩, by decide, ⟨1, by decide⟩, ⟨4, by decide⟩⟩

theorem witness_ResponsesFollowTheKindOfStep :
    (∃ t, exec (.wrWEnabled 0) base = .next t) ∧ isHostOp (.wrWEnabled 0) ∧ isHostWrite (.wrWEnabled 0) ∧
    (∃ t, exec (.evWD0 0 true) onW = .next t) ∧ ¬ isHostOp (.evWD0 0 true) :=
  ⟨⟨_, rfl⟩, by unfold isHostOp; decide, by unfold isHostWrite; decide, ⟨_, rfl⟩, by unfold isHostOp; decide⟩

theorem witness_NonOkAccessChangesNothing :
    ∃ t, (coming base [at_ 0x00000001 5]).inputs = at_ 0x00000001 5 :: [] ∧ step (coming base [at_ 0x00000001 5]) = .next t ∧
      t.resp = some ⟨.nodev, 0⟩ ∧ Status.nodev ≠ Status.ok := ⟨_, rfl, rfl, rfl, by decide⟩

theorem witness_ConfigurationIsFixedForARun :
    (coming base [at_ 0xC0000C0F 0]).deb.length = base.cfg.nDi ∧ ∃ t, step (coming base [at_ 0xC0000C0F 0]) = .next t :=
  ⟨by decide, _, rfl⟩

theorem witness_TimeNeverDecreases :
    ∃ t, step (coming base [at_ 0x00000000 5]) = .next t ∧ base.fresh = false ∧ t.fresh = false := ⟨_, rfl, rfl, rfl⟩

theorem witness_DebounceRegisterReads : base.filter 1 = some (Debounce.reset Config.vectors) := by decide

/-- A state with this WDATA. -/
def writing (v : Word) (s : State) : State := { s with wdata := v }

theorem witness_WiegandEnableWrite :
    ((writing 2 base).wdata ≠ 0 ∧ (writing 2 base).wdata ≠ 1) ∧
    ((writing 1 onW).wdata = 1 ∧ ((writing 1 onW).w 0).enabled = true) ∧
    ((writing 1 onCd).wdata = 1 ∧ ((writing 1 onCd).w 0).enabled = false ∧ (writing 1 onCd).lineHeld (wLines onCd.cfg 0).first) ∧
    (((writing 1 { base with extClaimed := [1] }).w 0).enabled = false ∧
      (writing 1 { base with extClaimed := [1] }).lineHeld (wLines base.cfg 0).second) ∧
    ((writing 1 base).wdata = 1 ∧ ((writing 1 base).w 0).enabled = false ∧
      ¬ (writing 1 base).lineHeld (wLines base.cfg 0).first ∧ ¬ (writing 1 base).lineHeld (wLines base.cfg 0).second) := by
  unfold State.lineHeld; decide

theorem witness_WiegandDisableWrite :
    (onW.wdata = 0 ∧ (onW.w 0).enabled = true) ∧ (onW.w 1).enabled = false := by decide

theorem witness_ClockDataEnableWrite :
    ((writing 0xFFFFFFFFFFFFFFFF base).wdata ≠ 0 ∧ (writing 0xFFFFFFFFFFFFFFFF base).wdata ≠ 1) ∧
    ((writing 1 onCd).wdata = 1 ∧ ((writing 1 onCd).cd 0).enabled = true) ∧
    ((writing 1 onW).wdata = 1 ∧ ((writing 1 onW).cd 0).enabled = false ∧ (writing 1 onW).lineHeld (cdLines onW.cfg 0).first) ∧
    (((writing 1 { base with extClaimed := [1] }).cd 0).enabled = false ∧
      (writing 1 { base with extClaimed := [1] }).lineHeld (cdLines base.cfg 0).second) ∧
    ((writing 1 base).wdata = 1 ∧ ((writing 1 base).cd 0).enabled = false ∧
      ¬ (writing 1 base).lineHeld (cdLines base.cfg 0).first ∧ ¬ (writing 1 base).lineHeld (cdLines base.cfg 0).second) := by
  unfold State.lineHeld; decide

theorem witness_ClockDataDisableWrite :
    (onCd.wdata = 0 ∧ (onCd.cd 0).enabled = true) ∧ (onCd.cd 1).enabled = false := by decide

theorem witness_HoldTimeWrites :
    base.filter 0 = some (Debounce.reset Config.vectors) ∧
    2 ^ 32 ≤ (writing 0x100000000 base).wdata.toNat ∧ (writing 0xFFFFFFFF base).wdata.toNat < 2 ^ 32 := by decide

/-- W[0] enabled after Scenario A, at the last busy time and at the first one after it. -/
def afterA (t : Micros) : State :=
  { onW with w1 := { onW.w1 with lastBitTs := 1300, bitCount := 2, word := 1 }, now := t }

/-- CD[0] enabled after Scenario C. -/
def afterC (t : Micros) : State :=
  { onCd with cd1 := { onCd.cd1 with lastClockTs := 3500, bitCount := 8, word := 0xAA }, now := t }

theorem witness_WiegandTimestampRead :
    (base.w 0).enabled = false ∧
    (((afterA 4000).w 0).enabled = true ∧ (afterA 4000).now - ((afterA 4000).w 0).lastBitTs ≤ ((afterA 4000).w 0).itvlMax) ∧
    (((afterA 4001).w 0).enabled = true ∧
      ¬ (afterA 4001).now - ((afterA 4001).w 0).lastBitTs ≤ ((afterA 4001).w 0).itvlMax) := by decide

theorem witness_ClockDataTimestampRead :
    (base.cd 0).enabled = false ∧
    (((afterC 5100).cd 0).enabled = true ∧ (afterC 5100).now - ((afterC 5100).cd 0).lastClockTs ≤ ((afterC 5100).cd 0).periodMax) ∧
    (((afterC 5101).cd 0).enabled = true ∧
      ¬ (afterC 5101).now - ((afterC 5101).cd 0).lastClockTs ≤ ((afterC 5101).cd 0).periodMax) := by decide

theorem witness_BusyIsNeverTorn :
    (afterA 4000).now - ((afterA 4000).w 0).lastBitTs ≤ ((afterA 4000).w 0).itvlMax ∧
    (afterC 5100).now - ((afterC 5100).cd 0).lastClockTs ≤ ((afterC 5100).cd 0).periodMax := by decide

theorem witness_ReaderNeverMutatesDecoderState :
    (∃ t, exec (.rdWDataTs 0) (afterA 4001) = .next t) ∧ (∃ t, exec (.rdCdDataTs 0) (afterC 5101) = .next t) ∧
    (∃ t, exec (.rdWNoise 0) onW = .next t) ∧ (∃ t, exec (.rdCdNoise 0) onCd = .next t) := ⟨⟨_, rfl⟩, ⟨_, rfl⟩, ⟨_, rfl⟩, ⟨_, rfl⟩⟩

/-- A read of DATA_TS to come, and a step after it. -/
def readsA (rest : List StepInput) : State := coming (afterA 4001) (at_ 0x00000001 4001 :: rest)

/-- A read of DATA_TS of CD[0] to come, and a step after it. -/
def readsC (rest : List StepInput) : State := coming (afterC 5101) (at_ 0x00000401 5101 :: rest)

-- A falling edge of D0 comes between the read of DATA_TS and the reads of the shadow.
theorem witness_SnapshotIsNeverTorn_wiegand :
    ∃ s' t, (readsA [at_ 0x80000000 4002]).nextOp = some (.rdWDataTs 0) ∧ step (readsA [at_ 0x80000000 4002]) = .next s' ∧
      s'.resp = some ⟨.ok, 1300⟩ ∧ RunWith (KeepsWiegandShadow 0) s' t ∧ t.now = 4002 :=
  ⟨_, _, by decide, rfl, rfl,
    .next rfl ⟨by decide, fun h => absurd h.1 (by decide)⟩ (.refl _), rfl⟩

theorem witness_SnapshotIsNeverTorn_clock_data :
    ∃ s' t, (readsC [at_ 0x80000400 5102]).nextOp = some (.rdCdDataTs 0) ∧ step (readsC [at_ 0x80000400 5102]) = .next s' ∧
      s'.resp = some ⟨.ok, 3500⟩ ∧ RunWith (KeepsClockDataShadow 0) s' t ∧ t.now = 5102 :=
  ⟨_, _, by decide, rfl, rfl,
    .next rfl ⟨by decide, fun h => absurd h.1 (by decide)⟩ (.refl _), rfl⟩

theorem witness_DisabledWiegandEventIsIgnored : (base.w 1).enabled = false := by decide

theorem witness_RepeatedEdgeKeepsTheWord : (onW.w 0).enabled = true ∧ (true == false) = (onW.w 0).wasLow .d1 := by decide

/-- W[0] in the middle of a pulse on D1, with one bit held. -/
def midPulse (t : Micros) : State :=
  { onW with w1 := { onW.w1 with wasLowD1 := true, activeLine := some .d1, bitCount := 1, lastBitTs := 1300 }, now := t }

theorem witness_FallingEdgeOfAWiegandLine :
    (onW.w 0).enabled = true ∧ (onW.w 0).wasLow .d0 = false ∧
    ((midPulse 1400).w 0).enabled = true ∧ ((midPulse 1400).w 0).wasLow .d0 = false := by decide

theorem witness_RisingEdgeOfAWiegandLine : ((midPulse 1360).w 0).enabled = true ∧ ((midPulse 1360).w 0).wasLow .d1 = true := by decide

-- The early clause one µs below the minimum of 1200, the late one one µs above the maximum of 2700.
theorem witness_EarlyAndLatePulsesDiffer :
    (((afterA 2499).w 0).enabled = true ∧ ((afterA 2499).w 0).wasLow .d0 = false ∧ ((afterA 2499).w 0).bitCount ≠ 0 ∧
      (afterA 2499).now - ((afterA 2499).w 0).lastBitTs < ((afterA 2499).w 0).itvlMin) ∧
    (¬ (afterA 4001).now - ((afterA 4001).w 0).lastBitTs < ((afterA 4001).w 0).itvlMin ∧
      ((afterA 4001).w 0).itvlMax < (afterA 4001).now - ((afterA 4001).w 0).lastBitTs ∧
      ((afterA 4001).w 0).activeLine = none) := by decide

theorem witness_NoiseLeavesACleanDecoder :
    ∃ t, exec (evW 0 .d0 false) (midPulse 2600) = .next t ∧ (t.w 0).noise ≠ ((midPulse 2600).w 0).noise ∧
      (t.w 0).noise ≠ .repeatedEdge := ⟨_, rfl, by decide, by decide⟩

-- The last time of the window: 2700 µs after the falling edge.
theorem witness_AcceptedPulseOpensTheBusyWindow :
    ∃ t, exec (evW 0 .d0 false) onW = .next t ∧ (onW.w 0).activeLine ≠ some .d0 ∧ (t.w 0).activeLine = some .d0 ∧
      (onW.w 0).enabled = true ∧ onW.now ≤ 2700 ∧ (2700 : Micros) - onW.now ≤ (onW.w 0).itvlMax :=
  ⟨_, rfl, by decide, by decide, by decide, by decide, by decide⟩

/-- No filter of `base` has a timer pending, so no step passes a deadline. -/
theorem noDeadlinePasses_base {s : State} (h : ∀ d ∈ s.deb, d ∈ base.deb) (xs : List StepInput) :
    (coming s xs).NoDeadlinePasses := by
  intro d hd L deadline hp
  have hi := h d hd
  simp only [base, State.reset, State.resetFor, List.mem_replicate] at hi
  rw [hi.2] at hp
  cases hp

/-- Scenario A: a pulse on D0 at 0 and one on D1 at 1300, at the bounds of width. -/
def trainA : List Pulse := [⟨.d0, 0, 10⟩, ⟨.d1, 1200, 1350⟩]

theorem witness_WiegandDecodingLaw :
    ((onW.w 0).enabled = true ∧ (onW.w 0).bitCount = 0 ∧ (onW.w 0).activeLine = none ∧ (onW.w 0).wasLowD0 = false ∧
      (onW.w 0).wasLowD1 = false ∧ (onW.w 0).word = 0 ∧ onW.fresh = false) ∧
    (coming onW (trainSteps 0 trainA)).NoDeadlinePasses ∧ (coming onW (trainSteps 0 trainA)).inputs = trainSteps 0 trainA ∧
    TimesRise onW.now (trainA.flatMap fun p => [p.fall, p.rise]) ∧ WidthsFit (onW.w 0) trainA ∧
    IntervalsFit (onW.w 0).itvlMin (onW.w 0).itvlMax (trainA.map Pulse.fall) := by
  refine ⟨by decide, noDeadlinePasses_base (fun d h => h) _, rfl, ?_, ?_, ?_⟩
  · simp only [trainA, List.flatMap_cons, List.flatMap_nil, List.cons_append, List.nil_append, TimesRise]; decide
  · unfold WidthsFit; decide
  · simp only [trainA, List.map_cons, List.map_nil, IntervalsFit]; decide

/-- Two clock edges at the shortest period and a third at the longest. -/
def edgesC : List (Bool × Micros) := [(false, 0), (true, 400), (false, 2000)]

theorem witness_ClockDataDecodingLaw :
    ((onCd.cd 0).enabled = true ∧ (onCd.cd 0).bitCount = 0 ∧ (onCd.cd 0).word = 0 ∧ onCd.fresh = false) ∧
    (∀ xs, (coming onCd xs).NoDeadlinePasses) ∧ TimesRise onCd.now (edgesC.map Prod.snd) ∧
    IntervalsFit (onCd.cd 0).periodMin (onCd.cd 0).periodMax (edgesC.map Prod.snd) := by
  refine ⟨by decide, noDeadlinePasses_base (fun d h => h), ?_, ?_⟩
  · simp only [edgesC, List.map_cons, List.map_nil, TimesRise]; decide
  · simp only [edgesC, List.map_cons, List.map_nil, IntervalsFit]; decide

theorem witness_DebounceEventArmsTheTimer :
    armed.filter 0 = some { Debounce.reset Config.vectors with pend := .armed true 50000 } ∧ armed.now.toNat + 2 ^ 42 < 2 ^ 64 ∧
    armed.filter 1 = some (Debounce.reset Config.vectors) := by decide

theorem witness_ExpiryCommitsTheArmedLevel :
    ({ armed with now := 50000 } : State).filter 0 = some { Debounce.reset Config.vectors with pend := .armed true 50000 } := by decide

theorem witness_DebounceAccessesNeverBlock :
    base.filter 1 = some (Debounce.reset Config.vectors) ∧ target (.wrDiOnMs 1) = .di 1 ∧ (kindOf (encode (.wrDiOnMs 1))).toNat < 2 := by
  decide

-- The glitch of V5.1: level 0 comes while the timer is armed for 1, and no event of level 1 follows.
theorem witness_GlitchIsNeverSettled :
    (∃ due, (armed.filter 0).map Debounce.pend = some (.armed true due)) ∧
    (∃ t, RunWith (fun s _ => s.nextOp ≠ some (.evDiIn 0 true)) (coming base [at_ 0x80000800 3]) t ∧
      (t.filter 0).map Debounce.pend = some (.armed false 50003)) ∧
    (coming base [at_ 0x80000800 3]).filter 0 = some (Debounce.reset Config.vectors) ∧ (∀ due, (Debounce.reset Config.vectors).pend ≠ .armed true due) ∧
    (Debounce.reset Config.vectors).settled ≠ Settled.ofLevel true :=
  ⟨⟨50000, by decide⟩, ⟨_, .next rfl (by decide) (.refl _), by decide⟩, by decide,
    fun due (h : Pend.idle = .armed true due) => (by cases h), by decide⟩

theorem witness_AtMostOneCountPerExpiry :
    ∃ t d e, step (coming armed [at_ 0xC0000801 50000]) = .next t ∧ armed.filter 0 = some d ∧ t.filter 0 = some e ∧ e.onCnt = 1 :=
  ⟨_, _, _, rfl, rfl, rfl, rfl⟩

-- Scenario D: spurious notifications at 10 and 49999, and the sample at 50000.
/-- The steps of Scenario D: level 1 at 0 and again, then the sample of 1 at the deadline. -/
def stepsD : List StepInput :=
  eventAt (.evDiIn 0 true) 0 ::
    (([10, 49999] : List Micros).map (fun u => eventAt (.evDiIn 0 true) u) ++
      [eventAt (.sysExpire 0 true) (0 + holdUs (Debounce.reset Config.vectors) true)])

-- Scenario D of V1.4 with its first event as the first step after reset, and the same events a while after reset.
theorem witness_SpuriousNotificationsSettleOnce :
    ((coming State.reset stepsD).filter 0 = some (Debounce.reset Config.vectors) ∧
      (0 : DiIdx).val < (coming State.reset stepsD).cfg.nDi ∧ (coming State.reset stepsD).fresh = true ∧
      0 = (coming State.reset stepsD).cfg.tReset ∧ (coming State.reset stepsD).NoDeadlinePasses) ∧
    ((coming base stepsD).filter 0 = some (Debounce.reset Config.vectors) ∧ (0 : DiIdx).val < (coming base stepsD).cfg.nDi ∧
      (coming base stepsD).fresh = false ∧ (coming base stepsD).now ≤ 0 ∧ (coming base stepsD).NoDeadlinePasses) ∧
    (Debounce.reset Config.vectors).settled ≠ .on ∧ (Debounce.reset Config.vectors).pend = .idle ∧
    TimesRise 0 (0 :: ([10, 49999] ++ [0 + holdUs (Debounce.reset Config.vectors) true])) ∧
    (∀ u ∈ ([10, 49999] : List Micros), u < 0 + holdUs (Debounce.reset Config.vectors) true) := by
  refine ⟨⟨by decide, by decide, rfl, rfl, noDeadlinePasses_base (fun d h => h) _⟩,
    ⟨by decide, by decide, rfl, by decide, noDeadlinePasses_base (fun d h => h) _⟩, by decide, by decide, ?_, ?_⟩
  · simp only [List.cons_append, List.nil_append, TimesRise]; decide
  · intro u hu
    simp only [List.mem_cons, List.not_mem_nil, or_false] at hu
    rcases hu with rfl | rfl <;> decide

theorem witness_BlockResetRestoresEveryRecord :
    ∃ t, exec .sysReset (coming onW [at_ 0x00000000 5]) = .next t ∧ t.inputs = at_ 0x00000000 5 :: [] ∧
      (at_ 0x00000000 5).now ≠ onW.cfg.tReset := ⟨_, rfl, rfl, by decide⟩

theorem witness_InvariantsHoldAtReset : Config.vectors.wf = true := by decide

theorem witness_EveryStepKeepsTheInvariants :
    (coming State.reset [at_ 0x40000000 0]).Inv ∧ ∃ t, step (coming State.reset [at_ 0x40000000 0]) = .next t := by
  refine ⟨⟨⟨by decide, by decide⟩, ⟨?_, ?_⟩, by unfold State.ActiveLineInv; intro n L h; revert n; cases L <;> decide, ⟨rfl, ?_⟩,
    ?_, by decide, ?_⟩, _, rfl⟩
  · unfold Wiegand.BitsInv BitsFit; decide
  · unfold ClockData.BitsInv BitsFit; decide
  · intro ln o
    constructor
    · intro h; cases h
    · rintro ⟨h, -⟩
      exact absurd h (by
        cases o with
        | w n => revert n; decide
        | cd j => revert j; decide)
  · unfold State.CountInv Debounce.CountInv
    intro d hd
    simp only [coming, State.reset, State.resetFor, List.mem_replicate] at hd
    rw [hd.2]
    exact ⟨rfl, rfl⟩
  · intro d hd L due hp
    simp only [coming, State.reset, State.resetFor, List.mem_replicate] at hd
    rw [hd.2] at hp
    cases hp

theorem witness_ReachableStatesMeetTheStateRules :
    Config.vectors.wf = true ∧
    ∃ t, RunWith (fun _ _ => True) { State.resetFor Config.vectors with inputs := [at_ 0x00000000 0] } t ∧ t.fresh = false :=
  ⟨by decide, _, .next rfl trivial (.refl _), rfl⟩

theorem witness_InstancesAreIndependent :
    (target (.evWD0 0 false) = .w 0 ∧ ∃ t, exec (.evWD0 0 false) onW = .next t) ∧
    (target (.evCdClk 0 false) = .cd 0 ∧ ∃ t, exec (.evCdClk 0 false) onCd = .next t) ∧
    (target (.evDiIn 0 false) = .di 0 ∧ ∃ t, exec (.evDiIn 0 false) armed = .next t) ∧
    SameOperands onW { onW with w2 := { onW.w2 with word := 7 }, deb := [], claim := [] } ∧
    (({ onW with w2 := { onW.w2 with word := 7 }, deb := [], claim := [] } : State).w 0) = onW.w 0 ∧
    ∃ t, exec (.evWD0 0 false) { onW with w2 := { onW.w2 with word := 7 }, deb := [], claim := [] } = .next t :=
  ⟨⟨rfl, _, rfl⟩, ⟨rfl, _, rfl⟩, ⟨rfl, _, rfl⟩, ⟨rfl, rfl, rfl, rfl⟩, rfl, _, rfl⟩

-- One notification for each clause, in a state that holds lines 0 and 1 for W[0], or for CD[0].
theorem witness_RoutingFollowsTheClaimTable_events :
    onW.route [9] ⟨1, false, false, true⟩ = some (evW 0 .d1 false) ∧ onCd.route [9] ⟨0, true, true, false⟩ = some (.evCdClk 0 false) ∧
    base.route [8, 9] ⟨9, false, false, true⟩ = some (.evDiIn 1 false) ∧ base.claimOf 5 = none ∧ 5 ∉ ([8, 9] : List LineId) := by
  decide

-- Both lines of a pair, held; the first filter that line 9 feeds is filter 1, although a later one has it too.
theorem witness_RoutingFollowsTheClaimTable_delivery :
    (onW.claimOf 0 = some (.w 0) ∧ onW.claimOf 1 = some (.w 0) ∧ (wLines onW.cfg 0).first = 0 ∧ (wLines onW.cfg 0).second = 1 ∧
      (0 : LineId) ≠ 1) ∧
    (onCd.claimOf 0 = some (.cd 0) ∧ onCd.claimOf 1 = some (.cd 0) ∧ (cdLines onCd.cfg 0).first = 0 ∧ (1 : LineId) ≠ 0) ∧
    base.claimOf 9 = none ∧ ([8, 9, 9] : List LineId)[(1 : DiIdx).val]? = some 9 ∧
    (∀ m, m < (1 : DiIdx).val → ([8, 9, 9] : List LineId)[m]? ≠ some 9) :=
  ⟨by decide, by decide, by decide, by decide, by decide⟩

theorem witness_RoutingFollowsTheClaimTable_claims : onW.ClaimInv ∧ onCd.ClaimInv ∧ base.ClaimInv := by
  have two (o p : Owner) (ln : LineId) : claimAt [(0, o), (1, o)] ln = some p ↔ o = p ∧ (ln = 0 ∨ ln = 1) := by
    simp only [claimAt]
    by_cases h0 : 0 = ln
    · simp [h0.symm]
    · by_cases h1 : 1 = ln
      · simp [h1.symm]
      · simp [h0, h1, Ne.symm h0, Ne.symm h1]
  refine ⟨⟨rfl, fun ln o => ?_⟩, ⟨rfl, fun ln o => ?_⟩, ⟨rfl, fun ln o => ?_⟩⟩
  · refine (two (.w 0) o ln).trans ?_
    rcases o with n | j
    · match n with
      | 0 => simp [State.ownerEnabled, State.w, onW, hasLine, linesOf, wLines, base, State.reset, State.resetFor, Config.vectors]
      | 1 => simp [State.ownerEnabled, State.w, onW, base, State.reset, State.resetFor, Wiegand.reset]
    · match j with
      | 0 => simp [State.ownerEnabled, State.cd, onW, base, State.reset, State.resetFor, ClockData.reset]
      | 1 => simp [State.ownerEnabled, State.cd, onW, base, State.reset, State.resetFor, ClockData.reset]
  · refine (two (.cd 0) o ln).trans ?_
    rcases o with n | j
    · match n with
      | 0 => simp [State.ownerEnabled, State.w, onCd, base, State.reset, State.resetFor, Wiegand.reset]
      | 1 => simp [State.ownerEnabled, State.w, onCd, base, State.reset, State.resetFor, Wiegand.reset]
    · match j with
      | 0 => simp [State.ownerEnabled, State.cd, onCd, hasLine, linesOf, cdLines, base, State.reset, State.resetFor, Config.vectors]
      | 1 => simp [State.ownerEnabled, State.cd, onCd, base, State.reset, State.resetFor, ClockData.reset]
  · constructor
    · intro h; cases h
    · rintro ⟨h, -⟩
      exact absurd h (by
        cases o with
        | w n => revert n; decide
        | cd j => revert j; decide)

end Sys2Proof.Tests
end

section
/-! What an admitted step runs (00_scope.md R13). -/

namespace Sys2Proof.Machine

/-- The forward equation of `step` for an admitted operation; `step_next` is its inversion. -/
theorem step_of_decodeStep_ok {s : State} {x : StepInput} {rest : List StepInput} {i : Instr} (hinputs : s.inputs = x :: rest)
    (hadmitted : s.refusalByTime x = none) (hdecode : s.decodeStep x = .ok i) : step s = exec i (s.latch x rest) := by
  simp only [step, hinputs, hadmitted, hdecode]

/-- Settles O7. `decodeStep` is `decode` under the state's own N_DI and `latch` writes the five operand fields of the statement, so the
forward equation of `step` is the claim. That the operation is well formed is not needed. -/
theorem stepRunsTheDecodedOperation : Obligations.StepRunsTheDecodedOperation := by
  intro s x rest i hinputs hadmitted hdecode _
  have hstep : s.decodeStep x = .ok i := hdecode
  calc step s = exec i (s.latch x rest) := step_of_decodeStep_ok hinputs hadmitted hstep
    _ = exec i { s with inputs := rest, now := x.now, fresh := false, wdata := x.wdata, extClaimed := x.ext } := rfl

end Sys2Proof.Machine
end

section
/-! The configuration and the number of filters through a step (10_state.md R102, R108). -/

namespace Sys2Proof.Machine

/-- No effect of an operation changes the configuration; a block reset makes the N_DI filters it names again. -/
theorem Effect.cfg_eq_and_deb_length {s t : State} (hlen : s.deb.length = s.cfg.nDi) (e : Effect s t) :
    t.cfg = s.cfg ∧ t.deb.length = s.deb.length := by
  cases e with
  | respond st v => exact ⟨rfl, rfl⟩
  | wiegand n r o _ => exact ⟨setW_cfg s n r, congrArg List.length (setW_deb s n r)⟩
  | clockData j r o _ => exact ⟨setCd_cfg s j r, congrArg List.length (setCd_deb s j r)⟩
  | debounce k d e o _ _ => exact ⟨rfl, List.length_set⟩
  | enableW n _ _ => simp
  | disableW n _ => simp
  | enableCd j _ _ => simp
  | disableCd j _ => simp
  | reset => exact ⟨rfl, List.length_replicate.trans hlen.symm⟩

/-- Settles O15: the operands of a step touch neither the configuration nor a record, and an effect keeps both. -/
theorem configurationIsFixedForARun : Obligations.ConfigurationIsFixedForARun := by
  intro s t hlen hstep
  rcases step_effect hstep with ⟨-, rfl⟩ | ⟨x, rest, -, -, e⟩
  · exact ⟨rfl, rfl⟩
  · exact e.cfg_eq_and_deb_length (s := s.latch x rest) hlen

end Sys2Proof.Machine
end

section
/-! The record invariants: what R130, R131 and R133 of 10_state.md and R602 (b) of 43_debounce.md ask of one record, and that every
change of a record keeps it. -/

namespace Sys2Proof.Machine

/-! ### Accumulated bits (R130) -/

theorem bitsFit_zero : BitsFit 0 0 := by simp [BitsFit]

/-- An append shifts once and counts one, so a word below 2^n becomes one below 2^(n+1). -/
theorem BitsFit.append {word bit : Word} {n : BitCount} (h : BitsFit word n) (hn : ¬ 64 ≤ n.toNat) (hbit : bit.toNat < 2) :
    BitsFit (shiftIn word bit) (n + 1) := by
  obtain ⟨-, hword⟩ := h
  have hlt := hword (by omega)
  have hcount : (n + 1).toNat = n.toNat + 1 := by
    rw [BitVec.toNat_add_of_lt] <;> simp; omega
  rw [BitsFit, hcount]
  refine ⟨by omega, fun hn' => ?_⟩
  have hpow : 2 ^ (n.toNat + 1) = 2 * 2 ^ n.toNat := by rw [Nat.pow_succ, Nat.mul_comm]
  have hshift : (word <<< 1).toNat < 2 ^ (n.toNat + 1) := by
    rw [BitVec.toNat_shiftLeft, Nat.shiftLeft_eq]
    exact (Nat.mod_le _ _).trans_lt (by omega)
  have hbit' : bit.toNat < 2 ^ (n.toNat + 1) := by
    have := Nat.one_le_two_pow (n := n.toNat)
    omega
  rw [shiftIn, BitVec.toNat_or]
  exact Nat.or_lt_two_pow hshift hbit'

theorem Line.bit_lt_two (L : Line) : L.bit.toNat < 2 := by cases L <;> decide

theorem clockBit_lt_two (data : Bool) : (clockBit data).toNat < 2 := by cases data <;> decide

theorem wiegandTimeout_bitsFit (now : Micros) {r : Wiegand} (h : BitsFit r.word r.bitCount) :
    BitsFit (wiegandTimeout now r).word (wiegandTimeout now r).bitCount := by
  rcases wiegandTimeout_bits now r with ⟨hword, hcount⟩ | ⟨hword, hcount⟩ <;> rw [hword, hcount]
  · exact h
  · exact bitsFit_zero

theorem clockDataTimeout_bitsFit (now : Micros) {r : ClockData} (h : BitsFit r.word r.bitCount) :
    BitsFit (clockDataTimeout now r).word (clockDataTimeout now r).bitCount := by
  rcases clockDataTimeout_bits now r with ⟨hword, hcount⟩ | ⟨hword, hcount⟩ <;> rw [hword, hcount]
  · exact h
  · exact bitsFit_zero

/-! ### Wiegand records (R130, R131) -/

/-- 10_state.md R131 for one record. -/
def Wiegand.ActiveWasLow (r : Wiegand) : Prop := ∀ L, r.activeLine = some L → r.wasLow L = true

/-- A record with no active line meets R131. -/
theorem Wiegand.activeWasLow_of_none {r : Wiegand} (h : r.activeLine = none) : r.ActiveWasLow := by
  intro L hL
  rw [h] at hL
  cases hL

/-- R130: a notification keeps the bits, drops them, or appends one to a word that is not full. -/
theorem wiegandEdge_bitsInv (L : Line) (level : Bool) (now : Micros) {r : Wiegand} (h : r.BitsInv) :
    (wiegandEdge L level now r).BitsInv := by
  obtain ⟨hbits, hsnap⟩ := h
  obtain ⟨-, -, -, -, -, -, hsame, -⟩ := wiegandEdge_settings L level now r
  refine ⟨?_, by rw [hsame]; exact hsnap⟩
  have hlow (b : Bool) : BitsFit (r.setWasLow L b).word (r.setWasLow L b).bitCount := by simpa using hbits
  rcases wiegandEdge_cases L level now r with ⟨-, h⟩ | ⟨-, -, h⟩ | ⟨-, -, -, -, h⟩ | ⟨-, -, -, -, -, h⟩ |
    ⟨-, -, -, -, -, h⟩ | ⟨-, -, -, -, h⟩ | ⟨-, -, -, -, -, h⟩ | ⟨-, -, -, -, -, -, h⟩ |
    ⟨-, -, -, -, hroom, -, h⟩ <;> rw [h]
  · exact hbits
  · exact hbits
  · exact bitsFit_zero
  · exact bitsFit_zero
  · exact wiegandTimeout_bitsFit now (hlow true)
  · exact bitsFit_zero
  · exact hlow false
  · exact bitsFit_zero
  · exact hbits.append hroom L.bit_lt_two

/-- R131: a notification leaves the active line as it was, clears it, or makes it the line that has just been seen low. -/
theorem wiegandEdge_activeWasLow (L : Line) (level : Bool) (now : Micros) {r : Wiegand} (h : r.ActiveWasLow) :
    (wiegandEdge L level now r).ActiveWasLow := by
  rcases wiegandEdge_cases L level now r with ⟨-, hr⟩ | ⟨-, -, hr⟩ | ⟨-, -, -, -, hr⟩ | ⟨-, -, -, -, -, hr⟩ |
    ⟨-, -, -, -, -, hr⟩ | ⟨-, -, -, -, hr⟩ | ⟨-, -, -, -, -, hr⟩ | ⟨-, -, -, -, -, -, hr⟩ |
    ⟨-, -, -, -, -, -, hr⟩ <;> rw [hr]
  · exact h
  · exact h
  · exact Wiegand.activeWasLow_of_none rfl
  · exact Wiegand.activeWasLow_of_none rfl
  · intro M hM
    obtain rfl : L = M := Option.some.inj hM
    exact (wiegandTimeout_wasLow now _ L).trans (wasLow_setWasLow r L true)
  · exact Wiegand.activeWasLow_of_none rfl
  · exact Wiegand.activeWasLow_of_none rfl
  · exact Wiegand.activeWasLow_of_none rfl
  · exact Wiegand.activeWasLow_of_none rfl

/-- The invariants of one Wiegand record. -/
def Wiegand.RecordInv (r : Wiegand) : Prop := r.BitsInv ∧ r.ActiveWasLow

theorem Wiegand.reset_recordInv (c : Config) : (Wiegand.reset c).RecordInv :=
  ⟨⟨bitsFit_zero, by simp [Wiegand.reset]⟩, activeWasLow_of_none rfl⟩

theorem Wiegand.RecordInv.enabled {r : Wiegand} (h : r.RecordInv) : (wiegandEnabled r).RecordInv :=
  ⟨⟨bitsFit_zero, h.1.2⟩, activeWasLow_of_none rfl⟩

theorem Wiegand.RecordInv.disabled {r : Wiegand} (h : r.RecordInv) : { r with enabled := false }.RecordInv := h

theorem WiegandChange.recordInv {s : State} {n : WIdx} {r : Wiegand} (change : WiegandChange s n r)
    (h : (s.w n).RecordInv) : r.RecordInv := by
  obtain ⟨hbits, hactive⟩ := h
  cases change with
  | edge L level => exact ⟨wiegandEdge_bitsInv L level s.now hbits, wiegandEdge_activeWasLow L level s.now hactive⟩
  | itvlMin | itvlMax | widthMin | widthMax | clearNoise => exact ⟨hbits, hactive⟩
  | capture _ _ =>
    obtain ⟨hfit, -⟩ := hbits
    exact ⟨⟨hfit, hfit.1⟩, hactive⟩

/-- Only a write of ENABLED or a block reset changes `enabled`. -/
theorem WiegandChange.enabled_eq {s : State} {n : WIdx} {r : Wiegand} (change : WiegandChange s n r) :
    r.enabled = (s.w n).enabled := by
  cases change with
  | edge L level => exact (wiegandEdge_settings L level s.now (s.w n)).1
  | itvlMin | itvlMax | widthMin | widthMax | clearNoise | capture _ _ => rfl

/-! ### Clock-data records (R130) -/

/-- R130: a clock edge keeps the bits, drops them, or appends one to a word that is not full. -/
theorem clockEdge_bitsInv (data : Bool) (now : Micros) {r : ClockData} (h : r.BitsInv) : (clockEdge data now r).BitsInv := by
  obtain ⟨hbits, hsnap⟩ := h
  obtain ⟨-, -, -, -, hsame, -⟩ := clockEdge_settings data now r
  refine ⟨?_, by rw [hsame]; exact hsnap⟩
  have htimeout := clockDataTimeout_bitsFit now hbits
  rcases clockEdge_cases data now r with ⟨-, h⟩ | ⟨-, -, h⟩ | ⟨-, -, -, h⟩ | ⟨-, -, hroom, h⟩ <;> rw [h]
  · exact hbits
  · exact bitsFit_zero
  · exact htimeout
  · exact htimeout.append hroom (clockBit_lt_two data)

theorem ClockData.reset_bitsInv (c : Config) : (ClockData.reset c).BitsInv := ⟨bitsFit_zero, by simp [ClockData.reset]⟩

theorem ClockData.BitsInv.enabled {r : ClockData} (h : r.BitsInv) : (clockDataEnabled r).BitsInv := ⟨bitsFit_zero, h.2⟩

theorem ClockData.BitsInv.disabled {r : ClockData} (h : r.BitsInv) : { r with enabled := false }.BitsInv := h

theorem ClockDataChange.bitsInv {s : State} {j : CdIdx} {r : ClockData} (change : ClockDataChange s j r)
    (h : (s.cd j).BitsInv) : r.BitsInv := by
  cases change with
  | edge data => exact clockEdge_bitsInv data s.now h
  | periodMin | periodMax | clearNoise => exact h
  | capture _ _ =>
    obtain ⟨hfit, -⟩ := h
    exact ⟨hfit, hfit.1⟩

theorem ClockDataChange.enabled_eq {s : State} {j : CdIdx} {r : ClockData} (change : ClockDataChange s j r) :
    r.enabled = (s.cd j).enabled := by
  cases change with
  | edge data => exact (clockEdge_settings data s.now (s.cd j)).1
  | periodMin | periodMax | clearNoise | capture _ _ => rfl

/-! ### Debounce records (R133; 43_debounce.md R602 (b)) -/

/-- The deadline of a pending timer does not lie before a time. -/
def Debounce.NotPast (now : Micros) (d : Debounce) : Prop := ∀ L deadline, d.pend = .armed L deadline → now ≤ deadline

/-- The invariants of one debounce record at a time. -/
def Debounce.RecordInv (now : Micros) (d : Debounce) : Prop := d.CountInv ∧ d.NotPast now

theorem Debounce.notPast_of_idle {now : Micros} {d : Debounce} (h : d.pend = .idle) : d.NotPast now := by
  intro L deadline hp
  rw [h] at hp
  cases hp

theorem Debounce.countInv_iff_of_undef {d : Debounce} (hd : d.settled = .undef) :
    d.CountInv ↔ d.onCnt = 0 ∧ d.offCnt = 0 := by
  simp only [CountInv, hd]

theorem Debounce.countInv_iff_of_on {d : Debounce} (hd : d.settled = .on) :
    d.CountInv ↔ d.onCnt = d.offCnt ∨ d.onCnt = d.offCnt + 1 := by
  simp only [CountInv, hd]

theorem Debounce.countInv_iff_of_off {d : Debounce} (hd : d.settled = .off) :
    d.CountInv ↔ d.offCnt = d.onCnt ∨ d.offCnt = d.onCnt + 1 := by
  simp only [CountInv, hd]

/-- A commit counts its own level, which the other level's count may lead by one (R133). -/
theorem debounceExpire_countInv (level sample : Bool) {d : Debounce} (h : d.CountInv) :
    (debounceExpire level sample d).CountInv := by
  rcases debounceExpire_cases level sample d with ⟨-, he⟩ | ⟨-, -, hset, he⟩ | ⟨-, -, hset, he⟩ <;> rw [he]
  · exact h
  · cases hd : d.settled with
    | undef =>
      obtain ⟨hon, hoff⟩ := (Debounce.countInv_iff_of_undef hd).mp h
      exact .inr (by rw [hon, hoff])
    | on => exact absurd hd hset
    | off =>
      rcases (Debounce.countInv_iff_of_off hd).mp h with heq | heq
      · exact .inr (by rw [heq])
      · exact .inl heq.symm
  · cases hd : d.settled with
    | undef =>
      obtain ⟨hon, hoff⟩ := (Debounce.countInv_iff_of_undef hd).mp h
      exact .inr (by rw [hon, hoff])
    | off => exact absurd hd hset
    | on =>
      rcases (Debounce.countInv_iff_of_on hd).mp h with heq | heq
      · exact .inr (by rw [heq])
      · exact .inl heq.symm

theorem debounceExpire_pend (level sample : Bool) (d : Debounce) : (debounceExpire level sample d).pend = .idle := by
  rcases debounceExpire_cases level sample d with ⟨-, he⟩ | ⟨-, -, -, he⟩ | ⟨-, -, -, he⟩ <;> rw [he]

/-- Under the premise of R814 a timer is armed for a deadline that is not before now. -/
theorem debounceEvent_notPast {now : Micros} (hnow : timeFits now = true) (level : Bool) {d : Debounce} (h : d.NotPast now) :
    (debounceEvent level now d).NotPast now := by
  rcases debounceEvent_cases level now d with ⟨-, he⟩ | ⟨-, he⟩ <;> rw [he]
  · exact h
  · intro L deadline hp
    obtain ⟨-, rfl⟩ := Pend.armed.inj hp
    rw [BitVec.le_def, toNat_deadline hnow]
    exact Nat.le_add_right _ _

theorem debounceEvent_countInv (level : Bool) (now : Micros) {d : Debounce} (h : d.CountInv) :
    (debounceEvent level now d).CountInv := by
  rcases debounceEvent_cases level now d with ⟨-, he⟩ | ⟨-, he⟩ <;> rw [he] <;> exact h

theorem debounceReconfig_recordInv (now : Micros) (d : Debounce) : (debounceReconfig d).RecordInv now :=
  ⟨⟨rfl, rfl⟩, Debounce.notPast_of_idle rfl⟩

theorem Debounce.reset_recordInv (now : Micros) (c : Config) : (Debounce.reset c).RecordInv now :=
  ⟨⟨rfl, rfl⟩, notPast_of_idle rfl⟩

theorem DebounceChange.recordInv {s : State} {d e : Debounce} (change : DebounceChange s d e) (hnow : timeFits s.now = true)
    (h : d.RecordInv s.now) : e.RecordInv s.now := by
  obtain ⟨hcount, hpast⟩ := h
  cases change with
  | event level => exact ⟨debounceEvent_countInv level s.now hcount, debounceEvent_notPast hnow level hpast⟩
  | expire level sample _ =>
    exact ⟨debounceExpire_countInv level sample hcount, Debounce.notPast_of_idle (debounceExpire_pend level sample d)⟩
  | onMs ms | offMs ms => exact debounceReconfig_recordInv s.now _

/-- R133 as the spec words it follows from its inductive form. -/
theorem Debounce.CountInv.apart_at_most_one {d : Debounce} (h : d.CountInv) :
    d.onCnt = d.offCnt ∨ d.onCnt = d.offCnt + 1 ∨ d.offCnt = d.onCnt + 1 := by
  cases hd : d.settled with
  | undef =>
    obtain ⟨hon, hoff⟩ := (Debounce.countInv_iff_of_undef hd).mp h
    exact .inl (hon.trans hoff.symm)
  | on => exact ((countInv_iff_of_on hd).mp h).imp_right .inl
  | off => exact ((countInv_iff_of_off hd).mp h).imp Eq.symm .inr

end Sys2Proof.Machine
end

section
/-! The claim invariant (10_state.md R132) through a claim, a release and a step that does neither. -/

namespace Sys2Proof.Machine

theorem claimsBecome_of_claimPair {s t : State} {p : LinePair} {o : Owner} (h : t.claim = (s.claimPair p o).claim) :
    ClaimsBecome p (some o) s t := by
  intro ln
  simp only [State.claimOf, h, claimAt_claimPair]
  exact ⟨fun hln => if_pos hln, fun hln => if_neg hln⟩

theorem claimsBecome_of_releasePair {s t : State} {p : LinePair} (h : t.claim = (s.releasePair p).claim) :
    ClaimsBecome p none s t := by
  intro ln
  simp only [State.claimOf, h, claimAt_releasePair]
  exact ⟨fun hln => if_pos hln, fun hln => if_neg hln⟩

/-- No line of a pair that is not held has a claim. -/
theorem claimOf_eq_none_of_pair_free {s : State} {p : LinePair} (h : s.pairHeld p = false) {ln : LineId} (hln : hasLine p ln) :
    s.claimOf ln = none := by
  obtain ⟨hfirst, hsecond⟩ := Bool.or_eq_false_iff.mp h
  rcases hln with rfl | rfl
  · exact claimAt_of_not_held hfirst
  · exact claimAt_of_not_held hsecond

section
variable {s t : State} {o : Owner}

theorem State.ClaimInv.of_same_claims (h : s.ClaimInv) (hcfg : t.cfg = s.cfg) (hclaim : t.claim = s.claim)
    (henabled : ∀ p, t.ownerEnabled p = s.ownerEnabled p) : t.ClaimInv := by
  obtain ⟨hwf, hiff⟩ := h
  refine ⟨by rw [hclaim]; exact hwf, fun ln p => ?_⟩
  rw [State.claimOf, hclaim, henabled, hcfg]
  exact hiff ln p

/-- A decoder that finds both its lines free and takes them: no other enabled decoder can have one of them. -/
theorem State.ClaimInv.claimed (h : s.ClaimInv) (hcfg : t.cfg = s.cfg) (hfree : s.pairHeld (linesOf s.cfg o) = false)
    (hclaim : t.claim = (s.claimPair (linesOf s.cfg o) o).claim) (hon : t.ownerEnabled o = true)
    (hothers : ∀ p, p ≠ o → t.ownerEnabled p = s.ownerEnabled p) : t.ClaimInv := by
  obtain ⟨hwf, hiff⟩ := h
  refine ⟨by rw [hclaim]; exact claimWf_claimPair hwf _ _, fun ln p => ?_⟩
  obtain ⟨htaken, hkept⟩ := claimsBecome_of_claimPair hclaim ln
  rw [hcfg]
  by_cases hln : hasLine (linesOf s.cfg o) ln
  · have hnone := claimOf_eq_none_of_pair_free hfree hln
    rw [htaken hln]
    constructor
    · rintro ⟨⟩
      exact ⟨hon, hln⟩
    · rintro ⟨hp, hlnp⟩
      by_contra hne
      have hpo : p ≠ o := fun heq => hne (congrArg some heq.symm)
      have hold := (hiff ln p).mpr ⟨(hothers p hpo).symm.trans hp, hlnp⟩
      rw [hnone] at hold
      cases hold
  · rw [hkept hln, hiff]
    by_cases hpo : p = o
    · subst hpo; simp only [hln, and_false]
    · rw [hothers p hpo]

/-- An enabled decoder that releases its lines: they were claimed by it alone. -/
theorem State.ClaimInv.released (h : s.ClaimInv) (hcfg : t.cfg = s.cfg) (hwasOn : s.ownerEnabled o = true)
    (hclaim : t.claim = (s.releasePair (linesOf s.cfg o)).claim) (hoff : t.ownerEnabled o = false)
    (hothers : ∀ p, p ≠ o → t.ownerEnabled p = s.ownerEnabled p) : t.ClaimInv := by
  obtain ⟨hwf, hiff⟩ := h
  refine ⟨by rw [hclaim]; exact claimWf_releasePair hwf _, fun ln p => ?_⟩
  obtain ⟨hdropped, hkept⟩ := claimsBecome_of_releasePair hclaim ln
  rw [hcfg]
  by_cases hpo : p = o
  · subst hpo
    rw [hoff]
    by_cases hln : hasLine (linesOf s.cfg p) ln
    · simp [hdropped hln]
    · simp [hkept hln, hiff, hln]
  · rw [hothers p hpo, ← hiff]
    by_cases hln : hasLine (linesOf s.cfg o) ln
    · have howner : s.claimOf ln = some o := (hiff ln o).mpr ⟨hwasOn, hln⟩
      simp [hdropped hln, howner, Ne.symm hpo]
    · rw [hkept hln]

end

end Sys2Proof.Machine
end

section
/-! The invariants of the state (10_state.md R130 to R133, 43_debounce.md R602): after reset, through a step, along a run. -/

namespace Sys2Proof.Machine

/-- The invariants of a state, record by record. -/
theorem inv_of_records {s : State} (shape : s.ShapeInv) (wiegand : ∀ n, (s.w n).RecordInv) (clockData : ∀ j, (s.cd j).BitsInv)
    (claims : s.ClaimInv) (time : timeFits s.now = true) (debounce : ∀ d ∈ s.deb, d.RecordInv s.now) : s.Inv where
  shape := shape
  bits := ⟨fun n => (wiegand n).1, clockData⟩
  activeLine := fun n => (wiegand n).2
  claims := claims
  counts := fun d hd => (debounce d hd).1
  timers := ⟨time, fun d hd => (debounce d hd).2⟩

section
variable {s t : State}

theorem State.Inv.wiegand (h : s.Inv) (n : WIdx) : (s.w n).RecordInv := ⟨h.bits.1 n, h.activeLine n⟩

theorem State.Inv.clockData (h : s.Inv) (j : CdIdx) : (s.cd j).BitsInv := h.bits.2 j

theorem State.Inv.time (h : s.Inv) : timeFits s.now = true := h.timers.1

theorem State.Inv.debounce (h : s.Inv) : ∀ d ∈ s.deb, d.RecordInv s.now := fun d hd => ⟨h.counts d hd, h.timers.2 d hd⟩

end

/-! ### Reset -/

/-- T_RESET meets the premise of 60_exceptions.md R814 (93_implementation_defined.md). -/
theorem timeFits_tReset {c : Config} (h : c.wf = true) : timeFits c.tReset = true := by
  simp only [Config.wf, Bool.and_eq_true] at h
  exact h.2

@[simp] theorem resetFor_w (c : Config) (n : WIdx) : (State.resetFor c).w n = .reset c := by
  match n with
  | 0 => rfl
  | 1 => rfl

@[simp] theorem resetFor_cd (c : Config) (j : CdIdx) : (State.resetFor c).cd j = .reset c := by
  match j with
  | 0 => rfl
  | 1 => rfl

/-- After reset no decoder is enabled and no line is claimed (R132). -/
theorem resetFor_claimInv (c : Config) : (State.resetFor c).ClaimInv := by
  refine ⟨rfl, fun ln o => ⟨(fun hclaim => nomatch hclaim), ?_⟩⟩
  rintro ⟨hon, -⟩
  cases o with
  | w n => rw [State.ownerEnabled, resetFor_w] at hon; cases hon
  | cd j => rw [State.ownerEnabled, resetFor_cd] at hon; cases hon

theorem resetFor_inv {c : Config} (h : c.wf = true) : (State.resetFor c).Inv := by
  refine inv_of_records ⟨h, List.length_replicate⟩ (fun n => ?_) (fun j => ?_) (resetFor_claimInv c) (timeFits_tReset h) ?_
  · rw [resetFor_w]; exact Wiegand.reset_recordInv c
  · rw [resetFor_cd]; exact ClockData.reset_bitsInv c
  · intro d hd
    obtain rfl : d = .reset c := List.eq_of_mem_replicate hd
    exact Debounce.reset_recordInv _ c

/-- The steps to come are no part of the invariants. -/
theorem State.Inv.withInputs {s : State} (h : s.Inv) (xs : List StepInput) : State.Inv { s with inputs := xs } :=
  ⟨h.shape, h.bits, h.activeLine, h.claims, h.counts, h.timers⟩

/-- Settles O52: `resetFor_inv`, whatever the steps to come. -/
theorem invariantsHoldAtReset : Obligations.InvariantsHoldAtReset := fun _ xs hc => (resetFor_inv hc).withInputs xs

/-! ### One effect -/

section
variable {s t : State}

/-- The response is no part of the invariants. -/
theorem State.Inv.withResp (h : s.Inv) (o : Option Response) : State.Inv { s with resp := o } :=
  ⟨h.shape, h.bits, h.activeLine, h.claims, h.counts, h.timers⟩

theorem OnlyWiegandAndClaims.ownerEnabled_eq {n : WIdx} (frame : OnlyWiegandAndClaims n s t) {o : Owner} (ho : o ≠ .w n) :
    t.ownerEnabled o = s.ownerEnabled o := by
  obtain ⟨hw, hcd, -⟩ := frame
  cases o with
  | w m => exact congrArg Wiegand.enabled (hw m fun hm => ho (congrArg Owner.w hm))
  | cd j => exact congrArg ClockData.enabled (hcd j)

theorem OnlyClockDataAndClaims.ownerEnabled_eq {j : CdIdx} (frame : OnlyClockDataAndClaims j s t) {o : Owner} (ho : o ≠ .cd j) :
    t.ownerEnabled o = s.ownerEnabled o := by
  obtain ⟨hw, hcd, -⟩ := frame
  cases o with
  | w n => exact congrArg Wiegand.enabled (hw n)
  | cd m => exact congrArg ClockData.enabled (hcd m fun hm => ho (congrArg Owner.cd hm))

/-- A step of one Wiegand decoder keeps the invariants when it keeps those of its record and of the claims. -/
theorem State.Inv.of_onlyWiegandAndClaims {n : WIdx} (h : s.Inv) (frame : OnlyWiegandAndClaims n s t)
    (record : (t.w n).RecordInv) (claims : t.ClaimInv) : t.Inv := by
  obtain ⟨hw, hcd, hdeb, hcfg, hnow, -⟩ := frame
  refine inv_of_records ?_ (fun m => ?_) (fun j => ?_) claims ?_ ?_
  · rw [State.ShapeInv, hcfg, hdeb]; exact h.shape
  · by_cases hm : m = n
    · subst hm; exact record
    · rw [hw m hm]; exact h.wiegand m
  · rw [hcd]; exact h.clockData j
  · rw [hnow]; exact h.time
  · rw [hdeb, hnow]; exact h.debounce

/-- A step of one clock-data decoder keeps the invariants when it keeps those of its record and of the claims. -/
theorem State.Inv.of_onlyClockDataAndClaims {j : CdIdx} (h : s.Inv) (frame : OnlyClockDataAndClaims j s t)
    (record : (t.cd j).BitsInv) (claims : t.ClaimInv) : t.Inv := by
  obtain ⟨hw, hcd, hdeb, hcfg, hnow, -⟩ := frame
  refine inv_of_records ?_ (fun n => ?_) (fun m => ?_) claims ?_ ?_
  · rw [State.ShapeInv, hcfg, hdeb]; exact h.shape
  · rw [hw]; exact h.wiegand n
  · by_cases hm : m = j
    · subst hm; exact record
    · rw [hcd m hm]; exact h.clockData m
  · rw [hnow]; exact h.time
  · rw [hdeb, hnow]; exact h.debounce

end

section
variable {s : State}

/-- The claims stay right under an update of W[n] that leaves `enabled` alone. -/
theorem State.ClaimInv.setW (h : s.ClaimInv) {n : WIdx} {r : Wiegand} (henabled : r.enabled = (s.w n).enabled) :
    (s.setW n r).ClaimInv := by
  refine h.of_same_claims (setW_cfg s n r) (setW_claim s n r) fun o => ?_
  by_cases ho : o = .w n
  · subst ho; simpa [State.ownerEnabled] using henabled
  · exact (onlyWiegand_setW s n r s.resp).andClaims.ownerEnabled_eq ho

/-- The claims stay right under an update of CD[j] that leaves `enabled` alone. -/
theorem State.ClaimInv.setCd (h : s.ClaimInv) {j : CdIdx} {r : ClockData} (henabled : r.enabled = (s.cd j).enabled) :
    (s.setCd j r).ClaimInv := by
  refine h.of_same_claims (setCd_cfg s j r) (setCd_claim s j r) fun o => ?_
  by_cases ho : o = .cd j
  · subst ho; simpa [State.ownerEnabled] using henabled
  · exact (onlyClockData_setCd s j r s.resp).andClaims.ownerEnabled_eq ho

/-- A change of W[n] that is no enable, disable or reset. -/
theorem State.Inv.setW (h : s.Inv) {n : WIdx} {r : Wiegand} (change : WiegandChange s n r) : (s.setW n r).Inv := by
  have frame := (onlyWiegand_setW s n r s.resp).andClaims
  refine h.of_onlyWiegandAndClaims frame ?_ (h.claims.setW change.enabled_eq)
  rw [setW_w_same]
  exact change.recordInv (h.wiegand n)

/-- A change of CD[j] that is no enable, disable or reset. -/
theorem State.Inv.setCd (h : s.Inv) {j : CdIdx} {r : ClockData} (change : ClockDataChange s j r) : (s.setCd j r).Inv := by
  have frame := (onlyClockData_setCd s j r s.resp).andClaims
  refine h.of_onlyClockDataAndClaims frame ?_ (h.claims.setCd change.enabled_eq)
  rw [setCd_cd_same]
  exact change.bitsInv (h.clockData j)

/-- A change of DEB[k]. -/
theorem State.Inv.setFilter (h : s.Inv) {k : DiIdx} {d e : Debounce} (there : s.filter k = some d)
    (change : DebounceChange s d e) : (s.setFilter k e).Inv := by
  obtain ⟨hcfg, hlen⟩ := h.shape
  have hclaims : (s.setFilter k e).ClaimInv := h.claims.of_same_claims rfl rfl fun _ => rfl
  have he : e.RecordInv s.now := change.recordInv h.time (h.debounce d (mem_of_filter there))
  exact inv_of_records ⟨hcfg, List.length_set.trans hlen⟩ h.wiegand h.clockData hclaims h.time
    (forall_deb_setFilter k he h.debounce)

/-- R408: a Wiegand decoder takes its two free lines. -/
theorem State.Inv.enableW (h : s.Inv) {n : WIdx} (free : s.pairHeld (wLines s.cfg n) = false) :
    ((s.claimPair (wLines s.cfg n) (.w n)).setW n (wiegandEnabled (s.w n))).Inv := by
  have frame := (onlyWiegand_setW (s.claimPair (wLines s.cfg n) (.w n)) n (wiegandEnabled (s.w n)) s.resp).andClaims
  refine h.of_onlyWiegandAndClaims (n := n) frame ?_ (h.claims.claimed (o := .w n) ?_ free ?_ ?_ ?_)
  · rw [setW_w_same]; exact (h.wiegand n).enabled
  · simp
  · exact setW_claim _ n _
  · simp [State.ownerEnabled, wiegandEnabled]
  · exact fun p hp => frame.ownerEnabled_eq hp

/-- R409: an enabled Wiegand decoder releases its two lines. -/
theorem State.Inv.disableW (h : s.Inv) {n : WIdx} (on : (s.w n).enabled = true) :
    ((s.releasePair (wLines s.cfg n)).setW n { s.w n with enabled := false }).Inv := by
  have frame := (onlyWiegand_setW (s.releasePair (wLines s.cfg n)) n { s.w n with enabled := false } s.resp).andClaims
  refine h.of_onlyWiegandAndClaims (n := n) frame ?_ (h.claims.released (o := .w n) ?_ on ?_ ?_ ?_)
  · rw [setW_w_same]; exact (h.wiegand n).disabled
  · simp
  · exact setW_claim _ n _
  · simp [State.ownerEnabled]
  · exact fun p hp => frame.ownerEnabled_eq hp

/-- 42_clock_data.md R503: a clock-data decoder takes its two free lines. -/
theorem State.Inv.enableCd (h : s.Inv) {j : CdIdx} (free : s.pairHeld (cdLines s.cfg j) = false) :
    ((s.claimPair (cdLines s.cfg j) (.cd j)).setCd j (clockDataEnabled (s.cd j))).Inv := by
  have frame := (onlyClockData_setCd (s.claimPair (cdLines s.cfg j) (.cd j)) j (clockDataEnabled (s.cd j)) s.resp).andClaims
  refine h.of_onlyClockDataAndClaims (j := j) frame ?_ (h.claims.claimed (o := .cd j) ?_ free ?_ ?_ ?_)
  · rw [setCd_cd_same]; exact (h.clockData j).enabled
  · simp
  · exact setCd_claim _ j _
  · simp [State.ownerEnabled, clockDataEnabled]
  · exact fun p hp => frame.ownerEnabled_eq hp

/-- 42_clock_data.md R504: an enabled clock-data decoder releases its two lines. -/
theorem State.Inv.disableCd (h : s.Inv) {j : CdIdx} (on : (s.cd j).enabled = true) :
    ((s.releasePair (cdLines s.cfg j)).setCd j { s.cd j with enabled := false }).Inv := by
  have frame := (onlyClockData_setCd (s.releasePair (cdLines s.cfg j)) j { s.cd j with enabled := false } s.resp).andClaims
  refine h.of_onlyClockDataAndClaims (j := j) frame ?_ (h.claims.released (o := .cd j) ?_ on ?_ ?_ ?_)
  · rw [setCd_cd_same]; exact (h.clockData j).disabled
  · simp
  · exact setCd_claim _ j _
  · simp [State.ownerEnabled]
  · exact fun p hp => frame.ownerEnabled_eq hp

end

/-! ### One step, and a run -/

section
variable {s t : State}

/-- Every effect of an operation keeps the invariants. -/
theorem Effect.inv (e : Effect s t) (h : s.Inv) : t.Inv := by
  cases e with
  | respond st v => exact h.withResp _
  | wiegand n r o change => exact (h.setW change).withResp o
  | clockData j r o change => exact (h.setCd change).withResp o
  | debounce k d e o there change => exact (h.setFilter there change).withResp o
  | enableW n _ free => exact (h.enableW free).withResp _
  | disableW n on => exact (h.disableW on).withResp _
  | enableCd j _ free => exact (h.enableCd free).withResp _
  | disableCd j on => exact (h.disableCd on).withResp _
  | reset => exact (resetFor_inv h.shape.1).withInputs s.inputs

/-- An admitted step moves `now` past no deadline and keeps the premise of 60_exceptions.md R814. -/
theorem State.Inv.latch (h : s.Inv) {x : StepInput} (admitted : s.refusalByTime x = none) (rest : List StepInput) :
    (s.latch x rest).Inv := by
  obtain ⟨hfits, -, -, hdeadlines, -⟩ := (refusalByTime_eq_none_iff s x).mp admitted
  exact ⟨h.shape, h.bits, h.activeLine, h.claims, h.counts, hfits, fun d hd _ _ hp => not_pastDeadline (hdeadlines d hd) hp⟩

theorem step_inv (h : s.Inv) (hstep : step s = .next t) : t.Inv := by
  rcases step_effect hstep with ⟨-, rfl⟩ | ⟨x, rest, -, admitted, e⟩
  · exact h
  · exact e.inv (h.latch admitted rest)

/-- Every state of a run has the invariants of its first state. -/
theorem RunWith.inv {P : State → State → Prop} (run : RunWith P s t) (h : s.Inv) : t.Inv := by
  induction run with
  | refl s => exact h
  | next hstep _ _ ih => exact ih (step_inv h hstep)

end

/-- Settles O53: an admitted step first takes its operands, then has one `Effect`; both keep the invariants. -/
theorem everyStepKeepsTheInvariants : Obligations.EveryStepKeepsTheInvariants := fun _ _ => step_inv

theorem Line.eq_or_eq_other (L M : Line) : M = L ∨ M = L.other := by
  cases L <;> cases M <;> simp [Line.other]

/-- A line last seen high is not the active one (the contrapositive of R131). -/
theorem Wiegand.ActiveWasLow.not_active_of_high {r : Wiegand} (h : r.ActiveWasLow) {L : Line} (high : r.wasLow L = false) :
    r.activeLine = none ∨ r.activeLine = some L.other := by
  cases hactive : r.activeLine with
  | none => exact .inl rfl
  | some M =>
    have hlow : r.wasLow M = true := h M hactive
    rcases L.eq_or_eq_other M with rfl | rfl
    · exact absurd high (by simp [hlow])
    · exact .inr rfl

/-- Settles O54: power-on meets the invariants, every step of the run keeps them, and each rule is one of them. -/
theorem reachableStatesMeetTheStateRules : Obligations.ReachableStatesMeetTheStateRules := by
  intro c xs t hc run
  have h : t.Inv := run.inv (invariantsHoldAtReset c xs hc)
  refine ⟨fun n => ?_, fun j => ?_, fun n L => ⟨h.activeLine n L, (h.wiegand n).2.not_active_of_high⟩, h.claims.2,
    fun d hd => (h.counts d hd).apart_at_most_one⟩
  · obtain ⟨⟨hcount, hword⟩, hsnap⟩ := (h.wiegand n).1
    exact ⟨hcount, hword, hsnap⟩
  · obtain ⟨⟨hcount, hword⟩, hsnap⟩ := h.clockData j
    exact ⟨hcount, hword, hsnap⟩

end Sys2Proof.Machine
end

section
/-! A descriptor is determined by its five fields, and the bitwise operations act on each of them (30_encoding.md R301). -/

namespace Sys2Proof

theorem eq_iff_fields {d e : Descriptor} :
    d = e ↔
      kindOf d = kindOf e ∧ reservedOf d = reservedOf e ∧ unitOf d = unitOf e ∧ instOf d = instOf e ∧ lowOf d = lowOf e := by
  refine ⟨by rintro rfl; simp, fun ⟨hk, hr, hu, hi, hl⟩ => BitVec.eq_of_toNat_eq ?_⟩
  simp only [← BitVec.toNat_inj, toNat_kindOf, toNat_reservedOf, toNat_unitOf, toNat_instOf, toNat_lowOf] at hk hr hu hi hl
  omega

theorem kindOf_or (d e : Descriptor) : kindOf (d ||| e) = kindOf d ||| kindOf e := BitVec.extractLsb'_or

theorem reservedOf_or (d e : Descriptor) : reservedOf (d ||| e) = reservedOf d ||| reservedOf e := BitVec.extractLsb'_or

theorem unitOf_or (d e : Descriptor) : unitOf (d ||| e) = unitOf d ||| unitOf e := BitVec.extractLsb'_or

theorem instOf_or (d e : Descriptor) : instOf (d ||| e) = instOf d ||| instOf e := BitVec.extractLsb'_or

theorem lowOf_or (d e : Descriptor) : lowOf (d ||| e) = lowOf d ||| lowOf e := BitVec.extractLsb'_or

theorem and_eq_iff_fields {d m p : Descriptor} :
    d &&& m = p ↔ kindOf d &&& kindOf m = kindOf p ∧ reservedOf d &&& reservedOf m = reservedOf p ∧
      unitOf d &&& unitOf m = unitOf p ∧ instOf d &&& instOf m = instOf p ∧ lowOf d &&& lowOf m = lowOf p := by
  rw [eq_iff_fields]
  simp only [kindOf, reservedOf, unitOf, instOf, lowOf, BitVec.extractLsb'_and]

theorem descriptor_or (kind unit kind' unit' : BitVec 2) (inst inst' : BitVec 6) (low low' : BitVec 4) :
    descriptor kind unit inst low ||| descriptor kind' unit' inst' low' =
      descriptor (kind ||| kind') (unit ||| unit') (inst ||| inst') (low ||| low') := by
  simp [eq_iff_fields, kindOf_or, reservedOf_or, unitOf_or, instOf_or, lowOf_or]

end Sys2Proof
end

section
/-! The decoder and the encoder invert each other (30_encoding.md R301, R310): each sub-decoder is inverted once, and the two
directions are assembled from them by KIND and UNIT. -/

namespace Sys2Proof

/-! ### The two answers of `decode` -/

theorem decode_eq_ok_iff {nDi : Nat} {d : Descriptor} {i : Instr} :
    decode nDi d = .ok i ↔ reservedOf d = 0 ∧ decodeFields nDi d = some i := by
  unfold decode
  split
  · next j hj => split at hj <;> simp_all
  · next hj => split at hj <;> simp_all

theorem decode_eq_error_of_not_ok {nDi : Nat} {d : Descriptor} (h : ¬ ∃ i, decode nDi d = .ok i) :
    decode nDi d = .error (rejectOf d) := by
  unfold decode at h ⊢
  split at h
  · next i _ => exact absurd ⟨i, rfl⟩ h
  · rfl

/-! ### From the operation to its descriptor and back -/

section
variable {nDi : Nat} {i : Instr} {reg : BitVec 4}

theorem decode_hrd {unit : BitVec 2} {inst : Nat} (h : decodeRead nDi unit (BitVec.ofNat 6 inst) reg = some i) :
    decode nDi (hrd unit inst reg) = .ok i :=
  decode_eq_ok_iff.mpr (by simp [hrd, decodeFields, h])

theorem decode_hwr {unit : BitVec 2} {inst : Nat} (h : decodeWrite nDi unit (BitVec.ofNat 6 inst) reg = some i) :
    decode nDi (hwr unit inst reg) = .ok i :=
  decode_eq_ok_iff.mpr (by simp [hwr, decodeFields, h])

theorem decode_hrd_wiegand {n : WIdx} (h : readWiegand n reg = some i) : decode nDi (hrd 0 n reg) = .ok i :=
  decode_hrd (by simpa [decodeRead] using h)

theorem decode_hwr_wiegand {n : WIdx} (h : writeWiegand n reg = some i) : decode nDi (hwr 0 n reg) = .ok i :=
  decode_hwr (by simpa [decodeWrite] using h)

theorem decode_hrd_clockData {j : CdIdx} (h : readClockData j reg = some i) : decode nDi (hrd 1 j reg) = .ok i :=
  decode_hrd (by simpa [decodeRead] using h)

theorem decode_hwr_clockData {j : CdIdx} (h : writeClockData j reg = some i) : decode nDi (hwr 1 j reg) = .ok i :=
  decode_hwr (by simpa [decodeWrite] using h)

theorem decode_hrd_debounce {k : DiIdx} (hk : k.val < nDi) (h : readDebounce k reg = some i) :
    decode nDi (hrd 2 k reg) = .ok i :=
  decode_hrd (Option.bind_eq_some_iff.mpr ⟨k, filterIdx_ofNat hk, h⟩)

theorem decode_hwr_debounce {k : DiIdx} (hk : k.val < nDi) (h : writeDebounce k reg = some i) :
    decode nDi (hwr 2 k reg) = .ok i :=
  decode_hwr (Option.bind_eq_some_iff.mpr ⟨k, filterIdx_ofNat hk, h⟩)

theorem decode_evt {unit : BitVec 2} {inst : Nat} {port : BitVec 2} {data level : Bool}
    (h : decodeEvent nDi unit (BitVec.ofNat 6 inst) (port ++ BitVec.ofBool data ++ BitVec.ofBool level) = some i) :
    decode nDi (evt unit inst port data level) = .ok i :=
  decode_eq_ok_iff.mpr (by simp [evt, decodeFields, h])

theorem decode_sys {unit : BitVec 2} {inst : BitVec 6} {low : BitVec 4} (h : decodeSystem nDi unit inst low = some i) :
    decode nDi (descriptor 3 unit inst low) = .ok i :=
  decode_eq_ok_iff.mpr (by simp [decodeFields, h])

theorem filterIdx_map_ofNat {k : DiIdx} (hk : k.val < nDi) (f : DiIdx → Instr) :
    (filterIdx nDi (BitVec.ofNat 6 k.val)).map f = some (f k) := by
  rw [filterIdx_ofNat hk, Option.map_some]

end

/-- Settles O1, by the operation: its row of the register map, or of the event table, is the sub-decoder's line for it. -/
theorem encodeThenDecodeIsIdentity : Obligations.EncodeThenDecodeIsIdentity := by
  intro nDi i hwf
  cases i with
  | wrWEnabled n => exact decode_hwr_wiegand rfl
  | rdWEnabled n => exact decode_hrd_wiegand rfl
  | rdWDataTs n => exact decode_hrd_wiegand rfl
  | rdWDataBits n => exact decode_hrd_wiegand rfl
  | rdWDataWord n => exact decode_hrd_wiegand rfl
  | rdWNoise n => exact decode_hrd_wiegand rfl
  | rdWItvlMin n => exact decode_hrd_wiegand rfl
  | wrWItvlMin n => exact decode_hwr_wiegand rfl
  | rdWItvlMax n => exact decode_hrd_wiegand rfl
  | wrWItvlMax n => exact decode_hwr_wiegand rfl
  | rdWWidthMin n => exact decode_hrd_wiegand rfl
  | wrWWidthMin n => exact decode_hwr_wiegand rfl
  | rdWWidthMax n => exact decode_hrd_wiegand rfl
  | wrWWidthMax n => exact decode_hwr_wiegand rfl
  | evWD0 n l => exact decode_evt (by cases l <;> simp [decodeEvent])
  | evWD1 n l => exact decode_evt (by cases l <;> simp [decodeEvent])
  | wrCdEnabled j => exact decode_hwr_clockData rfl
  | rdCdEnabled j => exact decode_hrd_clockData rfl
  | rdCdDataTs j => exact decode_hrd_clockData rfl
  | rdCdDataBits j => exact decode_hrd_clockData rfl
  | rdCdDataWord j => exact decode_hrd_clockData rfl
  | rdCdNoise j => exact decode_hrd_clockData rfl
  | rdCdPeriodMin j => exact decode_hrd_clockData rfl
  | wrCdPeriodMin j => exact decode_hwr_clockData rfl
  | rdCdPeriodMax j => exact decode_hrd_clockData rfl
  | wrCdPeriodMax j => exact decode_hwr_clockData rfl
  | evCdClk j d => exact decode_evt (by cases d <;> simp [decodeEvent])
  | rdDiDeb k => exact decode_hrd_debounce (of_decide_eq_true hwf) rfl
  | rdDiOnMs k => exact decode_hrd_debounce (of_decide_eq_true hwf) rfl
  | wrDiOnMs k => exact decode_hwr_debounce (of_decide_eq_true hwf) rfl
  | rdDiOffMs k => exact decode_hrd_debounce (of_decide_eq_true hwf) rfl
  | wrDiOffMs k => exact decode_hwr_debounce (of_decide_eq_true hwf) rfl
  | rdDiOnCnt k => exact decode_hrd_debounce (of_decide_eq_true hwf) rfl
  | rdDiOffCnt k => exact decode_hrd_debounce (of_decide_eq_true hwf) rfl
  | evDiIn k l => exact decode_evt (by cases l <;> exact filterIdx_map_ofNat (of_decide_eq_true hwf) _)
  | sysExpire k l => exact decode_sys (by cases l <;> exact filterIdx_map_ofNat (of_decide_eq_true hwf) _)
  | sysReset => rfl

/-! ### From the descriptor to its operation and back -/

section
variable {nDi : Nat} {i : Instr} {reg : BitVec 4}

/-- The operation is well formed and the descriptor is the one the encoder gives it. -/
def IsDescriptorOf (nDi : Nat) (d : Descriptor) (i : Instr) : Prop := i.wf nDi = true ∧ encode i = d

theorem isDescriptorOf_of_readWiegand {n : WIdx} (h : readWiegand n reg = some i) : IsDescriptorOf nDi (hrd 0 n reg) i := by
  unfold readWiegand at h
  split at h <;> cases h
  all_goals next hreg => exact ⟨rfl, congrArg (hrd 0 n) (BitVec.eq_of_toNat_eq hreg.symm)⟩

theorem isDescriptorOf_of_writeWiegand {n : WIdx} (h : writeWiegand n reg = some i) : IsDescriptorOf nDi (hwr 0 n reg) i := by
  unfold writeWiegand at h
  split at h <;> cases h
  all_goals next hreg => exact ⟨rfl, congrArg (hwr 0 n) (BitVec.eq_of_toNat_eq hreg.symm)⟩

theorem isDescriptorOf_of_readClockData {j : CdIdx} (h : readClockData j reg = some i) :
    IsDescriptorOf nDi (hrd 1 j reg) i := by
  unfold readClockData at h
  split at h <;> cases h
  all_goals next hreg => exact ⟨rfl, congrArg (hrd 1 j) (BitVec.eq_of_toNat_eq hreg.symm)⟩

theorem isDescriptorOf_of_writeClockData {j : CdIdx} (h : writeClockData j reg = some i) :
    IsDescriptorOf nDi (hwr 1 j reg) i := by
  unfold writeClockData at h
  split at h <;> cases h
  all_goals next hreg => exact ⟨rfl, congrArg (hwr 1 j) (BitVec.eq_of_toNat_eq hreg.symm)⟩

theorem isDescriptorOf_of_readDebounce {k : DiIdx} (hk : k.val < nDi) (h : readDebounce k reg = some i) :
    IsDescriptorOf nDi (hrd 2 k reg) i := by
  unfold readDebounce at h
  split at h <;> cases h
  all_goals next hreg => exact ⟨decide_eq_true hk, congrArg (hrd 2 k) (BitVec.eq_of_toNat_eq hreg.symm)⟩

theorem isDescriptorOf_of_writeDebounce {k : DiIdx} (hk : k.val < nDi) (h : writeDebounce k reg = some i) :
    IsDescriptorOf nDi (hwr 2 k reg) i := by
  unfold writeDebounce at h
  split at h <;> cases h
  all_goals next hreg => exact ⟨decide_eq_true hk, congrArg (hwr 2 k) (BitVec.eq_of_toNat_eq hreg.symm)⟩

theorem pairIdx_bind_eq_some {inst : BitVec 6} {f : Fin 2 → Option Instr} (h : (pairIdx inst).bind f = some i) :
    ∃ n : Fin 2, inst = BitVec.ofNat 6 n.val ∧ f n = some i := by
  obtain ⟨n, hn, hf⟩ := Option.bind_eq_some_iff.mp h
  exact ⟨n, pairIdx_eq_some hn, hf⟩

theorem filterIdx_bind_eq_some {inst : BitVec 6} {f : DiIdx → Option Instr} (h : (filterIdx nDi inst).bind f = some i) :
    ∃ k : DiIdx, inst = BitVec.ofNat 6 k.val ∧ k.val < nDi ∧ f k = some i := by
  obtain ⟨k, hk, hf⟩ := Option.bind_eq_some_iff.mp h
  obtain ⟨hinst, hlt⟩ := filterIdx_eq_some hk
  exact ⟨k, hinst, hlt, hf⟩

theorem isDescriptorOf_of_decodeRead {unit : BitVec 2} {inst : BitVec 6} (h : decodeRead nDi unit inst reg = some i) :
    IsDescriptorOf nDi (descriptor 0 unit inst reg) i := by
  match unit with
  | 0#2 =>
    obtain ⟨n, rfl, hn⟩ := pairIdx_bind_eq_some h
    exact isDescriptorOf_of_readWiegand hn
  | 1#2 =>
    obtain ⟨j, rfl, hj⟩ := pairIdx_bind_eq_some h
    exact isDescriptorOf_of_readClockData hj
  | 2#2 =>
    obtain ⟨k, rfl, hk, hi⟩ := filterIdx_bind_eq_some h
    exact isDescriptorOf_of_readDebounce hk hi
  | 3#2 => cases h

theorem isDescriptorOf_of_decodeWrite {unit : BitVec 2} {inst : BitVec 6} (h : decodeWrite nDi unit inst reg = some i) :
    IsDescriptorOf nDi (descriptor 1 unit inst reg) i := by
  match unit with
  | 0#2 =>
    obtain ⟨n, rfl, hn⟩ := pairIdx_bind_eq_some h
    exact isDescriptorOf_of_writeWiegand hn
  | 1#2 =>
    obtain ⟨j, rfl, hj⟩ := pairIdx_bind_eq_some h
    exact isDescriptorOf_of_writeClockData hj
  | 2#2 =>
    obtain ⟨k, rfl, hk, hi⟩ := filterIdx_bind_eq_some h
    exact isDescriptorOf_of_writeDebounce hk hi
  | 3#2 => cases h

theorem isDescriptorOf_of_pairIdx_map {kind unit u : BitVec 2} {inst : BitVec 6} {low l : BitVec 4} {f : Fin 2 → Instr}
    (h : (pairIdx inst).map f = some i) (hu : unit.toNat = u.toNat) (hl : low.toNat = l.toNat)
    (hf : ∀ n : Fin 2, IsDescriptorOf nDi (descriptor kind u (BitVec.ofNat 6 n.val) l) (f n)) :
    IsDescriptorOf nDi (descriptor kind unit inst low) i := by
  obtain rfl := BitVec.eq_of_toNat_eq hu
  obtain rfl := BitVec.eq_of_toNat_eq hl
  obtain ⟨n, hn, rfl⟩ := Option.map_eq_some_iff.mp h
  obtain rfl := pairIdx_eq_some hn
  exact hf n

theorem isDescriptorOf_of_filterIdx_map {kind unit u : BitVec 2} {inst : BitVec 6} {low l : BitVec 4} {f : DiIdx → Instr}
    (h : (filterIdx nDi inst).map f = some i) (hu : unit.toNat = u.toNat) (hl : low.toNat = l.toNat)
    (hf : ∀ k : DiIdx, k.val < nDi → IsDescriptorOf nDi (descriptor kind u (BitVec.ofNat 6 k.val) l) (f k)) :
    IsDescriptorOf nDi (descriptor kind unit inst low) i := by
  obtain rfl := BitVec.eq_of_toNat_eq hu
  obtain rfl := BitVec.eq_of_toNat_eq hl
  obtain ⟨k, hk, rfl⟩ := Option.map_eq_some_iff.mp h
  obtain ⟨rfl, hlt⟩ := filterIdx_eq_some hk
  exact hf k hlt

theorem isDescriptorOf_of_decodeEvent {unit : BitVec 2} {inst : BitVec 6} {low : BitVec 4}
    (h : decodeEvent nDi unit inst low = some i) : IsDescriptorOf nDi (descriptor 2 unit inst low) i := by
  unfold decodeEvent at h
  split at h
  · next hu hl => exact isDescriptorOf_of_pairIdx_map (u := 0) (l := 0b0000) h hu hl fun _ => ⟨rfl, rfl⟩
  · next hu hl => exact isDescriptorOf_of_pairIdx_map (u := 0) (l := 0b0001) h hu hl fun _ => ⟨rfl, rfl⟩
  · next hu hl => exact isDescriptorOf_of_pairIdx_map (u := 0) (l := 0b0100) h hu hl fun _ => ⟨rfl, rfl⟩
  · next hu hl => exact isDescriptorOf_of_pairIdx_map (u := 0) (l := 0b0101) h hu hl fun _ => ⟨rfl, rfl⟩
  · next hu hl => exact isDescriptorOf_of_pairIdx_map (u := 1) (l := 0b0000) h hu hl fun _ => ⟨rfl, rfl⟩
  · next hu hl => exact isDescriptorOf_of_pairIdx_map (u := 1) (l := 0b0010) h hu hl fun _ => ⟨rfl, rfl⟩
  · next hu hl => exact isDescriptorOf_of_filterIdx_map (u := 2) (l := 0b0000) h hu hl fun _ hk => ⟨decide_eq_true hk, rfl⟩
  · next hu hl => exact isDescriptorOf_of_filterIdx_map (u := 2) (l := 0b0001) h hu hl fun _ hk => ⟨decide_eq_true hk, rfl⟩
  · cases h

theorem isDescriptorOf_of_decodeSystem {unit : BitVec 2} {inst : BitVec 6} {low : BitVec 4}
    (h : decodeSystem nDi unit inst low = some i) : IsDescriptorOf nDi (descriptor 3 unit inst low) i := by
  unfold decodeSystem at h
  split at h
  · next hu hl => exact isDescriptorOf_of_filterIdx_map (u := 2) (l := 0b0000) h hu hl fun _ hk => ⟨decide_eq_true hk, rfl⟩
  · next hu hl => exact isDescriptorOf_of_filterIdx_map (u := 2) (l := 0b0001) h hu hl fun _ hk => ⟨decide_eq_true hk, rfl⟩
  · next hu hl =>
    obtain rfl : unit = 3 := BitVec.eq_of_toNat_eq hu
    obtain rfl : low = 0b1111 := BitVec.eq_of_toNat_eq hl
    split at h <;> cases h
    next hinst => exact hinst ▸ ⟨rfl, rfl⟩
  · cases h

theorem isDescriptorOf_of_decodeFields {d : Descriptor} (h : decodeFields nDi d = some i) :
    IsDescriptorOf nDi (descriptor (kindOf d) (unitOf d) (instOf d) (lowOf d)) i := by
  unfold decodeFields at h
  generalize kindOf d = kind at h ⊢
  match kind with
  | 0#2 => exact isDescriptorOf_of_decodeRead h
  | 1#2 => exact isDescriptorOf_of_decodeWrite h
  | 2#2 => exact isDescriptorOf_of_decodeEvent h
  | 3#2 => exact isDescriptorOf_of_decodeSystem h

end

/-- Settles O2: with no reserved bit set a descriptor is made again of its fields, and the sub-decoder of its KIND names the operation
that the encoder gives those fields. -/
theorem decodeThenEncodeIsIdentity : Obligations.DecodeThenEncodeIsIdentity := by
  intro nDi d i h
  obtain ⟨hreserved, hfields⟩ := decode_eq_ok_iff.mp h
  have hdesc := isDescriptorOf_of_decodeFields hfields
  rwa [descriptor_fields hreserved] at hdesc

end Sys2Proof
end

section
/-! Which descriptors are operations, said in terms of their fields (30_encoding.md R303 to R306, R310). The decoder's domain and the
rows of R310 are both compared with `LegalFields`, so neither is compared with the other line by line. -/

namespace Sys2Proof

/-- The values of bits [3:0] that R304 to R306 allow for a KIND and a UNIT: the offsets of the registers that can be read (KIND 0) or
written (KIND 1), the legal {PORT, DATA, LEVEL} of an event (KIND 2), the legal SYSOP (KIND 3). -/
def lowAllowed (kind unit : BitVec 2) (low : BitVec 4) : Bool :=
  match kind.toNat, unit.toNat with
  | 0, 0 => low.toNat ≤ 8
  | 0, 1 => low.toNat ≤ 6
  | 0, 2 => low.toNat ≤ 4
  | 1, 0 => low.toNat = 0 ∨ (5 ≤ low.toNat ∧ low.toNat ≤ 8)
  | 1, 1 => low.toNat = 0 ∨ (5 ≤ low.toNat ∧ low.toNat ≤ 6)
  | 1, 2 => 1 ≤ low.toNat ∧ low.toNat ≤ 2
  | 2, 0 => low.toNat ≤ 1 ∨ (4 ≤ low.toNat ∧ low.toNat ≤ 5)
  | 2, 1 => low.toNat = 0 ∨ low.toNat = 2
  | 2, 2 => low.toNat ≤ 1
  | 3, 2 => low.toNat ≤ 1
  | 3, 3 => low.toNat = 15
  | _, _ => false

/-- A descriptor is an operation, by its fields. -/
def LegalFields (nDi : Nat) (d : Descriptor) : Prop :=
  reservedOf d = 0 ∧ (instOf d).toNat < instanceCount nDi (unitOf d) ∧ lowAllowed (kindOf d) (unitOf d) (lowOf d) = true

theorem instanceCount_wiegand (nDi : Nat) : instanceCount nDi 0 = 2 := rfl

theorem instanceCount_clockData (nDi : Nat) : instanceCount nDi 1 = 2 := rfl

theorem instanceCount_debounce (nDi : Nat) : instanceCount nDi 2 = nDi := rfl

/-! ### The domain of the decoder -/

theorem isSome_readWiegand : ∀ (n : WIdx) (reg : BitVec 4), (readWiegand n reg).isSome = lowAllowed 0 0 reg := by decide

theorem isSome_writeWiegand : ∀ (n : WIdx) (reg : BitVec 4), (writeWiegand n reg).isSome = lowAllowed 1 0 reg := by decide

theorem isSome_readClockData : ∀ (j : CdIdx) (reg : BitVec 4), (readClockData j reg).isSome = lowAllowed 0 1 reg := by decide

theorem isSome_writeClockData : ∀ (j : CdIdx) (reg : BitVec 4), (writeClockData j reg).isSome = lowAllowed 1 1 reg := by decide

theorem isSome_readDebounce : ∀ (k : DiIdx) (reg : BitVec 4), (readDebounce k reg).isSome = lowAllowed 0 2 reg := by decide

theorem isSome_writeDebounce : ∀ (k : DiIdx) (reg : BitVec 4), (writeDebounce k reg).isSome = lowAllowed 1 2 reg := by decide

section
variable {nDi : Nat} {inst : BitVec 6}

@[simp] theorem isSome_pairIdx : (pairIdx inst).isSome = decide (inst.toNat < 2) := by
  unfold pairIdx
  split <;> simp [*]

@[simp] theorem isSome_filterIdx : (filterIdx nDi inst).isSome = decide (inst.toNat < nDi) := by
  unfold filterIdx
  split <;> simp [*]

theorem isSome_bind_of_forall {α β : Type} {o : Option α} {f : α → Option β} {b : Bool} (hf : ∀ a, (f a).isSome = b) :
    (o.bind f).isSome = (o.isSome && b) := by
  cases o <;> simp [hf]

theorem isSome_decodeRead (unit : BitVec 2) (reg : BitVec 4) :
    (decodeRead nDi unit inst reg).isSome = (decide (inst.toNat < instanceCount nDi unit) && lowAllowed 0 unit reg) := by
  match unit with
  | 0#2 => exact (isSome_bind_of_forall (isSome_readWiegand · reg)).trans (by simp [instanceCount])
  | 1#2 => exact (isSome_bind_of_forall (isSome_readClockData · reg)).trans (by simp [instanceCount])
  | 2#2 => exact (isSome_bind_of_forall (isSome_readDebounce · reg)).trans (by simp [instanceCount])
  | 3#2 => simp [decodeRead, lowAllowed]

theorem isSome_decodeWrite (unit : BitVec 2) (reg : BitVec 4) :
    (decodeWrite nDi unit inst reg).isSome = (decide (inst.toNat < instanceCount nDi unit) && lowAllowed 1 unit reg) := by
  match unit with
  | 0#2 => exact (isSome_bind_of_forall (isSome_writeWiegand · reg)).trans (by simp [instanceCount])
  | 1#2 => exact (isSome_bind_of_forall (isSome_writeClockData · reg)).trans (by simp [instanceCount])
  | 2#2 => exact (isSome_bind_of_forall (isSome_writeDebounce · reg)).trans (by simp [instanceCount])
  | 3#2 => simp [decodeWrite, lowAllowed]

theorem isSome_decodeEvent (unit : BitVec 2) (low : BitVec 4) :
    (decodeEvent nDi unit inst low).isSome = (decide (inst.toNat < instanceCount nDi unit) && lowAllowed 2 unit low) := by
  unfold decodeEvent
  split
  case h_9 =>
    have hno : lowAllowed 2 unit low = false := by
      unfold lowAllowed
      split <;> simp_all
      all_goals omega
    rw [hno, Bool.and_false, Option.isSome_none]
  all_goals next hu hl => simp [instanceCount, lowAllowed, hu, hl]

theorem isSome_decodeSystem (unit : BitVec 2) (low : BitVec 4) :
    (decodeSystem nDi unit inst low).isSome = (decide (inst.toNat < instanceCount nDi unit) && lowAllowed 3 unit low) := by
  unfold decodeSystem
  split
  · next hu hl => simp [instanceCount, lowAllowed, hu, hl]
  · next hu hl => simp [instanceCount, lowAllowed, hu, hl]
  · next hu hl =>
    have hzero : inst = 0#6 ↔ inst.toNat = 0 := BitVec.toNat_inj.symm
    by_cases h : inst.toNat = 0 <;> simp [instanceCount, lowAllowed, hu, hl, hzero, h]
  · have hno : lowAllowed 3 unit low = false := by
      unfold lowAllowed
      split <;> simp_all
      all_goals omega
    rw [hno, Bool.and_false, Option.isSome_none]

theorem isSome_decodeFields (nDi : Nat) (d : Descriptor) :
    (decodeFields nDi d).isSome =
      (decide ((instOf d).toNat < instanceCount nDi (unitOf d)) && lowAllowed (kindOf d) (unitOf d) (lowOf d)) := by
  unfold decodeFields
  match kindOf d with
  | 0#2 => exact isSome_decodeRead ..
  | 1#2 => exact isSome_decodeWrite ..
  | 2#2 => exact isSome_decodeEvent ..
  | 3#2 => exact isSome_decodeSystem ..

theorem exists_decode_eq_ok_iff_legalFields {nDi : Nat} {d : Descriptor} : (∃ i, decode nDi d = .ok i) ↔ LegalFields nDi d := by
  simp only [decode_eq_ok_iff, exists_and_left, ← Option.isSome_iff_exists, isSome_decodeFields, LegalFields, Bool.and_eq_true,
    decide_eq_true_eq]

end

/-! ### The rows of R310 -/

/-- The fields by which a row names its operations, INST and the reserved bits aside. -/
def OpcodeRow.names (r : OpcodeRow) (kind unit : BitVec 2) (low : BitVec 4) : Bool :=
  kind = kindOf r.pattern && unit = unitOf r.pattern && low &&& lowOf r.mask = lowOf r.pattern

/-- The 37 rows name exactly the allowed bits [3:0] of each KIND and UNIT. -/
theorem any_row_names : ∀ (kind unit : BitVec 2) (low : BitVec 4),
    (opcodeRows.any fun r => r.names kind unit low) = lowAllowed kind unit low := by decide

/-- Every row fixes KIND, the reserved bits and UNIT whole, and leaves INST free or, for RESET, fixes it at 0. -/
theorem opcodeRows_shape : ∀ r ∈ opcodeRows,
    (kindOf r.mask = BitVec.allOnes 2 ∧ reservedOf r.mask = BitVec.allOnes 18 ∧ unitOf r.mask = BitVec.allOnes 2) ∧
    (reservedOf r.pattern = 0 ∧ instOf r.pattern = 0) ∧ (instOf r.mask = 0 ∨ unitOf r.pattern = 3) := by decide

/-- UNIT 3 holds RESET alone: an INST in range is 0 (R306). -/
theorem instOf_eq_zero_of_unitOf_eq_three {nDi : Nat} {d : Descriptor} (hinst : (instOf d).toNat < instanceCount nDi (unitOf d))
    (hunit : unitOf d = 3) : instOf d = 0 := by
  rw [hunit] at hinst
  exact BitVec.eq_of_toNat_eq (Nat.lt_one_iff.mp hinst)

theorem row_matches_iff {nDi : Nat} {d : Descriptor} (hinst : (instOf d).toNat < instanceCount nDi (unitOf d)) {r : OpcodeRow}
    (hr : r ∈ opcodeRows) :
    d &&& r.mask = r.pattern ↔ reservedOf d = 0 ∧ r.names (kindOf d) (unitOf d) (lowOf d) = true := by
  obtain ⟨⟨hkind, hreserved, hunit⟩, ⟨hreserved', hinst'⟩, hfree⟩ := opcodeRows_shape r hr
  have hpart : unitOf d = unitOf r.pattern → instOf d &&& instOf r.mask = 0 := fun hu => by
    rcases hfree with hfree | hreset
    · rw [hfree]; exact BitVec.and_zero
    · rw [instOf_eq_zero_of_unitOf_eq_three hinst (hu.trans hreset)]; exact BitVec.zero_and
  rw [and_eq_iff_fields, hkind, hreserved, hunit, hreserved', hinst']
  simp only [BitVec.and_allOnes, OpcodeRow.names, Bool.and_eq_true, decide_eq_true_eq]
  tauto

theorem matchesRow_iff_legalFields {nDi : Nat} {d : Descriptor} : matchesRow nDi d = true ↔ LegalFields nDi d := by
  unfold matchesRow LegalFields
  rw [← any_row_names]
  simp only [Bool.and_eq_true, List.any_eq_true, decide_eq_true_eq]
  constructor
  · rintro ⟨⟨r, hr, hmatch⟩, hinst⟩
    obtain ⟨hreserved, hnames⟩ := (row_matches_iff hinst hr).mp hmatch
    exact ⟨hreserved, hinst, r, hr, hnames⟩
  · rintro ⟨hreserved, hinst, r, hr, hnames⟩
    exact ⟨⟨r, hr, (row_matches_iff hinst hr).mpr ⟨hreserved, hnames⟩⟩, hinst⟩

/-- Settles O3: the decoder's domain and the rows are both the descriptors of legal fields. -/
theorem operationsAreTheTableRows : Obligations.OperationsAreTheTableRows := fun _ _ =>
  exists_decode_eq_ok_iff_legalFields.trans matchesRow_iff_legalFields.symm

/-! ### Descriptors that are no operation -/

theorem rejectOf_eq_decErr {d : Descriptor} (h : (kindOf d).toNat < 2) : rejectOf d = .decErr := by
  simp [rejectOf, isHostAccess, h]

theorem rejectOf_eq_noSuchOperation {d : Descriptor} (h : 2 ≤ (kindOf d).toNat) : rejectOf d = .noSuchOperation := by
  simp only [rejectOf, isHostAccess, decide_eq_true_eq, if_neg (Nat.not_lt.mpr h)]

theorem decode_eq_error_of_reserved {nDi : Nat} {d : Descriptor} (h : reservedOf d ≠ 0) : decode nDi d = .error (rejectOf d) :=
  decode_eq_error_of_not_ok fun ⟨_, hi⟩ => h (decode_eq_ok_iff.mp hi).1

/-- Settles O4: a set reserved bit leaves only the rejection, which KIND chooses. -/
theorem reservedBitsAreNeverLegal : Obligations.ReservedBitsAreNeverLegal := by
  intro nDi d
  refine ⟨fun ⟨_, hi⟩ => (decode_eq_ok_iff.mp hi).1, fun hreserved hhost => ?_, fun hreserved hevent => ?_⟩
  · exact (decode_eq_error_of_reserved hreserved).trans (congrArg _ (rejectOf_eq_decErr hhost))
  · exact (decode_eq_error_of_reserved hreserved).trans (congrArg _ (rejectOf_eq_noSuchOperation hevent))

theorem decode_eq_error_of_matches_no_row {nDi : Nat} {d : Descriptor} (h : matchesRow nDi d = false) :
    decode nDi d = .error (rejectOf d) :=
  decode_eq_error_of_not_ok fun hi => by simp [(operationsAreTheTableRows nDi d).mp hi] at h

/-- The registers that a host access can name, and those that it can write (R304). -/
theorem lowAllowed_host : ∀ (kind unit : BitVec 2) (low : BitVec 4), kind.toNat < 2 → lowAllowed kind unit low = true →
    unit ≠ 3 ∧ (unit = 0 → low.toNat < 9) ∧ (unit = 1 → low.toNat < 7) ∧ (unit = 2 → low.toNat < 5) ∧
    (kind.toNat = 1 → unit ≠ 2 → low.toNat = 0 ∨ 4 < low.toNat) ∧
    (kind.toNat = 1 → unit = 2 → low.toNat = 1 ∨ low.toNat = 2) := by
  decide

/-- The legal {PORT, DATA, LEVEL} of each unit (R305). -/
theorem lowAllowed_event : ∀ (kind unit : BitVec 2) (low : BitVec 4), kind.toNat = 2 → lowAllowed kind unit low = true →
    unit ≠ 3 ∧ (unit = 0 → low[3] = false ∧ low[1] = false) ∧ (unit = 1 → low.extractLsb' 2 2 = 0 ∧ low[0] = false) ∧
    (unit = 2 → low.extractLsb' 2 2 = 0 ∧ low[1] = false) := by
  decide

/-- The two legal forms of a SYS (R306). -/
theorem lowAllowed_system : ∀ (kind unit : BitVec 2) (low : BitVec 4), kind.toNat = 3 → lowAllowed kind unit low = true →
    (unit = 2 ∧ low.extractLsb' 1 3 = 0) ∨ (kind = 3 ∧ unit = 3 ∧ low = 15) := by
  decide

theorem matchesRow_eq_false {nDi : Nat} {d : Descriptor} (h : ¬ LegalFields nDi d) : matchesRow nDi d = false :=
  Bool.eq_false_iff.mpr (mt matchesRow_iff_legalFields.mp h)

/-- The fields of RESET make one descriptor (R306). -/
theorem eq_reset_of_fields {d : Descriptor} (hreserved : reservedOf d = 0) (hinst : instOf d = 0)
    (hfields : kindOf d = 3 ∧ unitOf d = 3 ∧ lowOf d = 15) : d = 0xC0000C0F := by
  obtain ⟨hkind, hunit, hlow⟩ := hfields
  rw [← descriptor_fields hreserved, hkind, hunit, hinst, hlow]
  rfl

end Sys2Proof
end

section
/-! What becomes of an admitted step whose descriptor is no operation (30_encoding.md R312, R313). -/

namespace Sys2Proof.Machine

/-- The equation of `step` for an admitted step that names no operation. -/
theorem step_of_matches_no_row {s : State} {x : StepInput} {rest : List StepInput} (hinputs : s.inputs = x :: rest)
    (hadmitted : s.refusalByTime x = none) (hrow : matchesRow s.cfg.nDi x.desc = false) :
    step s = (s.latch x rest).rejected (rejectOf x.desc) := by
  simp only [step, hinputs, hadmitted, State.decodeStep, decode_eq_error_of_matches_no_row hrow]

/-- Settles O8: the rejection of a host access is DECERR, and each listed form is outside the legal fields. -/
theorem unnamedRegisterAnswersDecErr : Obligations.UnnamedRegisterAnswersDecErr := by
  refine ⟨fun s x rest hinputs hadmitted hhost hrow => ?_, fun nDi d hhost hform => matchesRow_eq_false ?_⟩
  · rw [step_of_matches_no_row hinputs hadmitted hrow, rejectOf_eq_decErr hhost]
    rfl
  · rintro ⟨hreserved, hinst, hlow⟩
    obtain ⟨hunit, hwiegand, hclock, hfilter, hwrite, hwriteFilter⟩ := lowAllowed_host _ _ _ hhost hlow
    rcases hform with h | h | ⟨hu, h⟩ | ⟨hu, h⟩ | ⟨hu, h⟩ | ⟨hk, hu, h⟩ | ⟨hk, hu, h⟩
    · exact h hreserved
    · exact hunit h
    · have := hwiegand hu
      rw [hu, instanceCount_wiegand] at hinst
      omega
    · have := hclock hu
      rw [hu, instanceCount_clockData] at hinst
      omega
    · have := hfilter hu
      rw [hu, instanceCount_debounce] at hinst
      omega
    · have := hwrite hk hu
      omega
    · have := hwriteFilter hk hu
      omega

/-- Settles O9: the rejection of an EVT or SYS is the refusal, and each listed form is outside the legal fields. -/
theorem unnamedEventIsRefused : Obligations.UnnamedEventIsRefused := by
  refine ⟨fun s x rest hinputs hadmitted hevent hrow => ?_, fun nDi d _ hform => matchesRow_eq_false ?_⟩
  · rw [step_of_matches_no_row hinputs hadmitted hrow, rejectOf_eq_noSuchOperation hevent]
    rfl
  · rintro ⟨hreserved, hinst, hlow⟩
    rcases hform with h | ⟨hk, h⟩ | ⟨hk, hexpire, hreset⟩
    · exact h hreserved
    · obtain ⟨hunit, hwiegand, hclock, hfilter⟩ := lowAllowed_event _ _ _ hk hlow
      rcases h with h | ⟨hu, h⟩ | ⟨hu, h⟩ | ⟨hu, h⟩
      · exact hunit h
      · simp [hwiegand hu] at h
      · simp [hclock hu] at h
      · simp [hfilter hu] at h
    · rcases lowAllowed_system _ _ _ hk hlow with h | h
      · exact hexpire h
      · exact hreset (eq_reset_of_fields hreserved (instOf_eq_zero_of_unitOf_eq_three hinst h.2.1) h)

end Sys2Proof.Machine
end

section
/-! The descriptors of the events and system steps (30_encoding.md R305, R306, R310): a row's match, INST and the sampled bit
each fill fields of their own. -/

namespace Sys2Proof.Machine

/-- A number below 64 shifted to bits [9:4] is the descriptor of that INST alone. -/
theorem shifted_inst_eq_descriptor :
    ∀ inst : Fin 64, BitVec.ofNat 32 inst <<< 4 = descriptor 0 0 (BitVec.ofNat 6 inst) 0 := by decide

/-- LEVEL alone. -/
theorem bitAt_zero_eq_descriptor : ∀ b : Bool, bitAt b 0 = descriptor 0 0 0 (0#3 ++ BitVec.ofBool b) := by decide

/-- DATA alone. -/
theorem bitAt_one_eq_descriptor : ∀ b : Bool, bitAt b 1 = descriptor 0 0 0 (0#2 ++ BitVec.ofBool b ++ 0#1) := by decide

/-- INST is 0 in the match of a row, so putting INST and a sampled bit in only fills those fields. -/
theorem rowAt_or_bit {kind unit : BitVec 2} {low bit : BitVec 4} {inst : Nat} (h : inst < 64) :
    rowAt (descriptor kind unit 0 low) inst ||| descriptor 0 0 0 bit =
      descriptor kind unit (BitVec.ofNat 6 inst) (low ||| bit) := by
  rw [rowAt, shifted_inst_eq_descriptor ⟨inst, h⟩, descriptor_or, descriptor_or]
  simp

/-- Settles O6: the row's match is the descriptor of the operation at INST 0 with the bit at 0, and the two fields are filled in. -/
theorem eventDescriptorsAreTheirRows : Obligations.EventDescriptorsAreTheirRows := by
  refine ⟨fun n l => ?_, fun n l => ?_, fun j d => ?_, fun k l => ?_, fun k r => ?_, rfl⟩
  · rw [show (0x80000000 : Descriptor) = descriptor 2 0 0 0 from rfl, bitAt_zero_eq_descriptor,
      rowAt_or_bit (n.isLt.trans (by decide))]
    cases l <;> rfl
  · rw [show (0x80000004 : Descriptor) = descriptor 2 0 0 4 from rfl, bitAt_zero_eq_descriptor,
      rowAt_or_bit (n.isLt.trans (by decide))]
    cases l <;> rfl
  · rw [show (0x80000400 : Descriptor) = descriptor 2 1 0 0 from rfl, bitAt_one_eq_descriptor,
      rowAt_or_bit (j.isLt.trans (by decide))]
    cases d <;> rfl
  · rw [show (0x80000800 : Descriptor) = descriptor 2 2 0 0 from rfl, bitAt_zero_eq_descriptor, rowAt_or_bit k.isLt]
    cases l <;> rfl
  · rw [show (0xC0000800 : Descriptor) = descriptor 3 2 0 0 from rfl, bitAt_zero_eq_descriptor, rowAt_or_bit k.isLt]
    cases r <;> rfl

end Sys2Proof.Machine
end

section
/-! The response of an operation (30_encoding.md R308). -/

namespace Sys2Proof.Machine

/-- A host read was answered: any status other than OK comes with value 0. -/
def ReadAnswered (t : State) : Prop := ∃ a, t.resp = some a ∧ (a.status ≠ .ok → a.value = 0)

/-- A host write was answered: the value is 0 whatever the status. -/
def WriteAnswered (t : State) : Prop := ∃ a, t.resp = some a ∧ a.value = 0

/-- What R308 says of the response to a descriptor, by its KIND. -/
def ResponseFits (d : Descriptor) (t : State) : Prop :=
  match (kindOf d).toNat with
  | 0 => ReadAnswered t
  | 1 => WriteAnswered t
  | _ => t.resp = none

section
variable {s t : State} {v : Word} {st : Status} {k : DiIdx}

theorem writeAnswered_respond_zero (s : State) (st : Status) : WriteAnswered (s.respond st 0) :=
  ⟨⟨st, 0⟩, by cases st <;> rfl, rfl⟩

theorem WriteAnswered.read (h : WriteAnswered t) : ReadAnswered t := by
  obtain ⟨a, ha, hvalue⟩ := h
  exact ⟨a, ha, fun _ => hvalue⟩

theorem readAnswered_of_answer (h : s.answer v = .next t) : ReadAnswered t := by
  cases h
  exact ⟨⟨.ok, v⟩, rfl, fun hst => absurd rfl hst⟩

theorem writeAnswered_of_answer_zero (h : s.answer 0 = .next t) : WriteAnswered t := by
  cases h
  exact writeAnswered_respond_zero s .ok

theorem writeAnswered_of_fail (h : s.fail st = .next t) : WriteAnswered t := by
  cases h
  exact writeAnswered_respond_zero s st

theorem readAnswered_of_fail (h : s.fail st = .next t) : ReadAnswered t := (writeAnswered_of_fail h).read

/-- A read of a filter's register answers, or is DECERR. -/
theorem readAnswered_of_filterRead {f : Debounce → Word} (h : (withFilter s k fun d => s.answer (f d)) = .next t) :
    ReadAnswered t := by
  rcases withFilter_next h with ⟨-, rfl⟩ | ⟨d, -, h⟩
  · exact (writeAnswered_respond_zero s .decErr).read
  · exact readAnswered_of_answer h

theorem rdWDataTs_readAnswered {n : WIdx} (h : execRdWDataTs n s = .next t) : ReadAnswered t := by
  unfold execRdWDataTs at h
  split at h
  · exact readAnswered_of_fail h
  · split at h
    · exact readAnswered_of_fail h
    · exact readAnswered_of_answer h

theorem rdCdDataTs_readAnswered {j : CdIdx} (h : execRdCdDataTs j s = .next t) : ReadAnswered t := by
  unfold execRdCdDataTs at h
  split at h
  · exact readAnswered_of_fail h
  · split at h
    · exact readAnswered_of_fail h
    · exact readAnswered_of_answer h

theorem enableW_writeAnswered {n : WIdx} (h : s.enableW n = .next t) : WriteAnswered t := by
  unfold State.enableW at h
  split at h
  · exact writeAnswered_of_answer_zero h
  · split at h
    · exact writeAnswered_of_fail h
    · exact writeAnswered_of_answer_zero h

theorem disableW_writeAnswered {n : WIdx} (h : s.disableW n = .next t) : WriteAnswered t := by
  unfold State.disableW at h
  split at h
  · exact writeAnswered_of_answer_zero h
  · exact writeAnswered_of_answer_zero h

theorem wrWEnabled_writeAnswered {n : WIdx} (h : execWrWEnabled n s = .next t) : WriteAnswered t := by
  unfold execWrWEnabled at h
  split at h
  · exact enableW_writeAnswered h
  · exact disableW_writeAnswered h
  · exact writeAnswered_of_fail h

theorem enableCd_writeAnswered {j : CdIdx} (h : s.enableCd j = .next t) : WriteAnswered t := by
  unfold State.enableCd at h
  split at h
  · exact writeAnswered_of_answer_zero h
  · split at h
    · exact writeAnswered_of_fail h
    · exact writeAnswered_of_answer_zero h

theorem disableCd_writeAnswered {j : CdIdx} (h : s.disableCd j = .next t) : WriteAnswered t := by
  unfold State.disableCd at h
  split at h
  · exact writeAnswered_of_answer_zero h
  · exact writeAnswered_of_answer_zero h

theorem wrCdEnabled_writeAnswered {j : CdIdx} (h : execWrCdEnabled j s = .next t) : WriteAnswered t := by
  unfold execWrCdEnabled at h
  split at h
  · exact enableCd_writeAnswered h
  · exact disableCd_writeAnswered h
  · exact writeAnswered_of_fail h

/-- A write to a filter's register is answered as its meaning says, or is DECERR where there is no filter. -/
theorem writeAnswered_of_withFilter {f : Debounce → Host.Outcome State Fault Refusal} (h : withFilter s k f = .next t)
    (hf : ∀ d, f d = .next t → WriteAnswered t) : WriteAnswered t := by
  rcases withFilter_next h with ⟨-, rfl⟩ | ⟨d, -, h⟩
  · exact writeAnswered_respond_zero s .decErr
  · exact hf d h

theorem wrDiOnMs_writeAnswered (h : execWrDiOnMs k s = .next t) : WriteAnswered t := by
  refine writeAnswered_of_withFilter h fun d h => ?_
  split at h
  · exact writeAnswered_of_answer_zero h
  · exact writeAnswered_of_fail h

theorem wrDiOffMs_writeAnswered (h : execWrDiOffMs k s = .next t) : WriteAnswered t := by
  refine writeAnswered_of_withFilter h fun d h => ?_
  split at h
  · exact writeAnswered_of_answer_zero h
  · exact writeAnswered_of_fail h

theorem evDiIn_silent {level : Bool} (h : execEvDiIn k level s = .next t) : t.resp = none := by
  obtain ⟨d, -, h⟩ := withEventFilter_next h
  cases h
  rfl

theorem sysExpire_silent {sample : Bool} (h : execSysExpire k sample s = .next t) : t.resp = none := by
  obtain ⟨d, -, h⟩ := withEventFilter_next h
  split at h
  · cases h
  · split at h
    · cases h; rfl
    · cases h

theorem responseFits_hrd {unit : BitVec 2} {inst : Nat} {reg : BitVec 4} (h : ReadAnswered t) :
    ResponseFits (hrd unit inst reg) t := by
  simpa [ResponseFits, hrd] using h

theorem responseFits_hwr {unit : BitVec 2} {inst : Nat} {reg : BitVec 4} (h : WriteAnswered t) :
    ResponseFits (hwr unit inst reg) t := by
  simpa [ResponseFits, hwr] using h

theorem responseFits_evt {unit : BitVec 2} {inst : Nat} {port : BitVec 2} {data level : Bool} (h : t.resp = none) :
    ResponseFits (evt unit inst port data level) t := by
  simpa [ResponseFits, evt] using h

theorem responseFits_sys {unit : BitVec 2} {inst : BitVec 6} {low : BitVec 4} (h : t.resp = none) :
    ResponseFits (descriptor 3 unit inst low) t := by
  simpa [ResponseFits] using h

end

/-- The response of an operation, by its KIND. -/
theorem exec_responseFits {i : Instr} {s t : State} (h : exec i s = .next t) : ResponseFits (encode i) t := by
  cases i with
  | wrWEnabled n => exact responseFits_hwr (wrWEnabled_writeAnswered h)
  | rdWEnabled n => exact responseFits_hrd (readAnswered_of_answer h)
  | rdWDataTs n => exact responseFits_hrd (rdWDataTs_readAnswered h)
  | rdWDataBits n => exact responseFits_hrd (readAnswered_of_answer h)
  | rdWDataWord n => exact responseFits_hrd (readAnswered_of_answer h)
  | rdWNoise n => exact responseFits_hrd (readAnswered_of_answer h)
  | rdWItvlMin n => exact responseFits_hrd (readAnswered_of_answer h)
  | wrWItvlMin n => exact responseFits_hwr (writeAnswered_of_answer_zero h)
  | rdWItvlMax n => exact responseFits_hrd (readAnswered_of_answer h)
  | wrWItvlMax n => exact responseFits_hwr (writeAnswered_of_answer_zero h)
  | rdWWidthMin n => exact responseFits_hrd (readAnswered_of_answer h)
  | wrWWidthMin n => exact responseFits_hwr (writeAnswered_of_answer_zero h)
  | rdWWidthMax n => exact responseFits_hrd (readAnswered_of_answer h)
  | wrWWidthMax n => exact responseFits_hwr (writeAnswered_of_answer_zero h)
  | evWD0 n level => cases h; exact responseFits_evt rfl
  | evWD1 n level => cases h; exact responseFits_evt rfl
  | wrCdEnabled j => exact responseFits_hwr (wrCdEnabled_writeAnswered h)
  | rdCdEnabled j => exact responseFits_hrd (readAnswered_of_answer h)
  | rdCdDataTs j => exact responseFits_hrd (rdCdDataTs_readAnswered h)
  | rdCdDataBits j => exact responseFits_hrd (readAnswered_of_answer h)
  | rdCdDataWord j => exact responseFits_hrd (readAnswered_of_answer h)
  | rdCdNoise j => exact responseFits_hrd (readAnswered_of_answer h)
  | rdCdPeriodMin j => exact responseFits_hrd (readAnswered_of_answer h)
  | wrCdPeriodMin j => exact responseFits_hwr (writeAnswered_of_answer_zero h)
  | rdCdPeriodMax j => exact responseFits_hrd (readAnswered_of_answer h)
  | wrCdPeriodMax j => exact responseFits_hwr (writeAnswered_of_answer_zero h)
  | evCdClk j data => cases h; exact responseFits_evt rfl
  | rdDiDeb k => exact responseFits_hrd (readAnswered_of_filterRead h)
  | rdDiOnMs k => exact responseFits_hrd (readAnswered_of_filterRead h)
  | wrDiOnMs k => exact responseFits_hwr (wrDiOnMs_writeAnswered h)
  | rdDiOffMs k => exact responseFits_hrd (readAnswered_of_filterRead h)
  | wrDiOffMs k => exact responseFits_hwr (wrDiOffMs_writeAnswered h)
  | rdDiOnCnt k => exact responseFits_hrd (readAnswered_of_filterRead h)
  | rdDiOffCnt k => exact responseFits_hrd (readAnswered_of_filterRead h)
  | evDiIn k level => exact responseFits_evt (evDiIn_silent h)
  | sysExpire k sample => exact responseFits_sys (sysExpire_silent h)
  | sysReset => cases h; exact responseFits_sys rfl

/-- Settles O13: the response of each KIND says what the statement asks of reads, of writes, and of events and system steps. -/
theorem responsesFollowTheKindOfStep : Obligations.ResponsesFollowTheKindOfStep := by
  intro i s t h
  have hfits := exec_responseFits h
  unfold isHostOp isHostWrite
  unfold ResponseFits at hfits
  split at hfits
  · next hk =>
    obtain ⟨a, ha, hvalue⟩ := hfits
    exact ⟨fun _ => ⟨a, ha, fun hw => by omega, hvalue⟩, fun hno => by omega⟩
  · next hk =>
    obtain ⟨a, ha, hvalue⟩ := hfits
    exact ⟨fun _ => ⟨a, ha, fun _ => hvalue, fun _ => hvalue⟩, fun hno => by omega⟩
  · next h0 h1 =>
    have h0 : (kindOf (encode i)).toNat ≠ 0 := h0
    have h1 : (kindOf (encode i)).toNat ≠ 1 := h1
    exact ⟨fun hhost => by omega, fun _ => hfits⟩

end Sys2Proof.Machine
end

section
/-! Wiegand register accesses (41_wiegand.md R408 to R419; 44_snapshot.md R703, R704): the descriptor of each and what it does. -/

namespace Sys2Proof.Machine

/-! ### Descriptors -/

/-- INST is 0 in the match of a row, so putting INST in only fills that field. -/
theorem rowAt_descriptor {kind unit : BitVec 2} {low : BitVec 4} {inst : Nat} (h : inst < 64) :
    rowAt (descriptor kind unit 0 low) inst = descriptor kind unit (BitVec.ofNat 6 inst) low := by
  rw [rowAt, shifted_inst_eq_descriptor ⟨inst, h⟩, descriptor_or]
  simp

theorem hrd_eq_rowAt {unit : BitVec 2} {inst : Nat} {reg : BitVec 4} (h : inst < 64) :
    hrd unit inst reg = rowAt (hrd unit 0 reg) inst := (rowAt_descriptor h).symm

theorem hwr_eq_rowAt {unit : BitVec 2} {inst : Nat} {reg : BitVec 4} (h : inst < 64) :
    hwr unit inst reg = rowAt (hwr unit 0 reg) inst := (rowAt_descriptor h).symm

theorem wIdx_lt_64 (n : WIdx) : n.val < 64 := n.isLt.trans (by decide)

/-! ### Responses -/

theorem answer_eq_next (s : State) (v : Word) : s.answer v = .next { s with resp := some ⟨.ok, v⟩ } := rfl

/-- Whatever the status, the value of a failed access is 0 (60_exceptions.md R802). -/
theorem fail_eq_next (s : State) (st : Status) : s.fail st = .next { s with resp := some ⟨st, 0⟩ } := by cases st <;> rfl

theorem zext64_ofBool (b : Bool) : zext64 (BitVec.ofBool b) = if b then 1 else 0 := by cases b <;> rfl

theorem zext64_eq_ofNat {w : Nat} (v : BitVec w) : zext64 v = BitVec.ofNat 64 v.toNat := (BitVec.ofNat_toNat 64 v).symm

/-! ### Reads without side effects -/

/-- Settles O17: each descriptor is its row at INST n, and each meaning is an answer with the field, widened to 64 bits. -/
theorem wiegandRegisterReads : Obligations.WiegandRegisterReads := by
  intro n s
  have hinst := wIdx_lt_64 n
  refine ⟨⟨hrd_eq_rowAt hinst, ?_⟩, ⟨hrd_eq_rowAt hinst, ?_⟩, ⟨hrd_eq_rowAt hinst, ?_⟩, ⟨hrd_eq_rowAt hinst, ?_⟩,
    ⟨hrd_eq_rowAt hinst, ?_⟩, ⟨hrd_eq_rowAt hinst, ?_⟩, ⟨hrd_eq_rowAt hinst, ?_⟩⟩
  · rw [← zext64_ofBool]; exact answer_eq_next s _
  · exact answer_eq_next s _
  · exact answer_eq_next s _
  · exact answer_eq_next s _
  · exact answer_eq_next s _
  · rw [← zext64_eq_ofNat]; exact answer_eq_next s _
  · exact answer_eq_next s _

/-! ### Thresholds -/

theorem OnlyWiegand.claim_eq {n : WIdx} {s t : State} (h : OnlyWiegand n s t) : t.claim = s.claim := by
  obtain ⟨-, -, -, hclaim, -⟩ := h
  exact hclaim

/-- A write that stores a record of W[n] and answers OK, with its frame. -/
theorem exists_answer_setW (s : State) (n : WIdx) (r : Wiegand) :
    ∃ t, (s.setW n r).answer 0 = .next t ∧ t.w n = r ∧ t.resp = some ⟨.ok, 0⟩ ∧ OnlyWiegand n s t :=
  ⟨(s.setW n r).respond .ok 0, rfl, by simp, rfl, onlyWiegand_setW s n r _⟩

/-- Settles O20: each of the four stores a record with WDATA in its threshold. -/
theorem wiegandThresholdWrites : Obligations.WiegandThresholdWrites := by
  intro n s
  have hinst := wIdx_lt_64 n
  exact ⟨⟨hwr_eq_rowAt hinst, exists_answer_setW s n _⟩, ⟨hwr_eq_rowAt hinst, exists_answer_setW s n _⟩,
    ⟨hwr_eq_rowAt hinst, exists_answer_setW s n _⟩, ⟨hwr_eq_rowAt hinst, exists_answer_setW s n _⟩⟩

/-! ### Enable and disable -/

theorem held_iff_lineHeld {s : State} {ln : LineId} : s.held ln = true ↔ s.lineHeld ln := by
  simp [State.held, State.lineHeld, State.claimOf, Option.isSome_iff_ne_none]

theorem pairHeld_iff_lineHeld {s : State} {p : LinePair} : s.pairHeld p = true ↔ s.lineHeld p.first ∨ s.lineHeld p.second := by
  simp only [State.pairHeld, Bool.or_eq_true, held_iff_lineHeld]

section
variable {n : WIdx} {s : State}

/-! #### The three operands of a write of ENABLED (R410) -/

theorem exec_wrWEnabled_one (h : s.wdata = 1) : exec (.wrWEnabled n) s = s.enableW n := by
  simp [exec, execWrWEnabled, enabledOperand, h]

theorem exec_wrWEnabled_zero (h : s.wdata = 0) : exec (.wrWEnabled n) s = s.disableW n := by
  simp [exec, execWrWEnabled, enabledOperand, h]

theorem exec_wrWEnabled_malformed (h0 : s.wdata ≠ 0) (h1 : s.wdata ≠ 1) : exec (.wrWEnabled n) s = s.fail .inval := by
  have hmalformed : enabledOperand s.wdata = none := (if_neg h1).trans (if_neg h0)
  simp only [exec, execWrWEnabled, hmalformed]

/-! #### The paths of `W_enable` (R408) and `W_disable` (R409) -/

theorem enableW_of_enabled (h : (s.w n).enabled = true) : s.enableW n = s.answer 0 := if_pos h

theorem enableW_of_held (off : (s.w n).enabled = false) (held : s.pairHeld (wLines s.cfg n) = true) :
    s.enableW n = s.fail .busy := by
  simp [State.enableW, off, held]

theorem enableW_of_free (off : (s.w n).enabled = false) (free : s.pairHeld (wLines s.cfg n) = false) :
    s.enableW n = ((s.claimPair (wLines s.cfg n) (.w n)).setW n (wiegandEnabled (s.w n))).answer 0 := by
  simp [State.enableW, off, free]

theorem disableW_of_disabled (h : (s.w n).enabled = false) : s.disableW n = s.answer 0 := by
  simp [State.disableW, h]

theorem disableW_of_enabled (h : (s.w n).enabled = true) :
    s.disableW n = ((s.releasePair (wLines s.cfg n)).setW n { s.w n with enabled := false }).answer 0 := if_pos h

end

/-- Settles O22, path by path of `W_enable`; the free path stores the record in a state that differs from `s` only in its claims. -/
theorem wiegandEnableWrite : Obligations.WiegandEnableWrite := by
  intro n s
  refine ⟨hwr_eq_rowAt (wIdx_lt_64 n), fun h0 h1 => ?_, fun h1 on => ?_, fun h1 off held => ?_,
    fun h1 off free free' => ?_⟩
  · rw [exec_wrWEnabled_malformed h0 h1, fail_eq_next]
  · rw [exec_wrWEnabled_one h1, enableW_of_enabled on, answer_eq_next]
  · rw [exec_wrWEnabled_one h1, enableW_of_held off (pairHeld_iff_lineHeld.mpr held)]
    rfl
  · have hfree : s.pairHeld (wLines s.cfg n) = false :=
      Bool.eq_false_iff.mpr (mt pairHeld_iff_lineHeld.mp (not_or.mpr ⟨free, free'⟩))
    obtain ⟨t, hnext, hrecord, hresp, frame⟩ :=
      exists_answer_setW (s.claimPair (wLines s.cfg n) (.w n)) n (wiegandEnabled (s.w n))
    rw [exec_wrWEnabled_one h1, enableW_of_free off hfree]
    exact ⟨t, hnext, hrecord, hresp, claimsBecome_of_claimPair frame.claim_eq, frame.andClaims⟩

/-- Settles O23: the enabled path stores the record in a state that differs from `s` only in its claims. -/
theorem wiegandDisableWrite : Obligations.WiegandDisableWrite := by
  intro n s h0
  refine ⟨fun off => ?_, fun on => ?_⟩
  · rw [exec_wrWEnabled_zero h0, disableW_of_disabled off, answer_eq_next]
  · obtain ⟨t, hnext, hrecord, hresp, frame⟩ :=
      exists_answer_setW (s.releasePair (wLines s.cfg n)) n { s.w n with enabled := false }
    rw [exec_wrWEnabled_zero h0, disableW_of_enabled on]
    exact ⟨t, hnext, hrecord, hresp, claimsBecome_of_releasePair frame.claim_eq, frame.andClaims⟩

end Sys2Proof.Machine
end

section
/-! The Wiegand notification as equations, one per path of 41_wiegand.md R401 to R407, and the event of a line that runs it. -/

namespace Sys2Proof.Machine

/-! ### wasLow -/

@[simp] theorem setWasLow_setWasLow (r : Wiegand) (L : Line) (a b : Bool) : (r.setWasLow L a).setWasLow L b = r.setWasLow L b := by
  cases L <;> rfl

@[simp] theorem setWasLow_wasLow (r : Wiegand) (L : Line) : r.setWasLow L (r.wasLow L) = r := by cases L <;> rfl

theorem setWasLow_eq_self {r : Wiegand} {L : Line} {b : Bool} (h : r.wasLow L = b) : r.setWasLow L b = r := by
  rw [← h, setWasLow_wasLow]

/-! ### The edge, by the line's last level (R401 to R403) -/

section
variable {L : Line} {level : Bool} {now : Micros} {r : Wiegand}

theorem wiegandEdge_of_disabled (off : r.enabled = false) : wiegandEdge L level now r = r := if_pos off

theorem wiegandEdge_of_repeated (on : r.enabled = true) (same : isLow level = r.wasLow L) :
    wiegandEdge L level now r = { r with noise := .repeatedEdge } := by
  simp [wiegandEdge, on, same]

theorem wiegandEdge_fall (on : r.enabled = true) (high : r.wasLow L = false) :
    wiegandEdge L false now r = fallingEdge L now (r.setWasLow L true) := by
  simp [wiegandEdge, on, high, isLow, levelChange]

theorem wiegandEdge_rise (on : r.enabled = true) (low : r.wasLow L = true) :
    wiegandEdge L true now r = risingEdge L now (r.setWasLow L false) := by
  simp [wiegandEdge, on, low, isLow, levelChange]

/-! ### A falling edge (R404 to R406) -/

/-- A decoder reset makes the timeout before it invisible. -/
theorem wiegandNoise_wiegandTimeout (code : Noise) (now : Micros) (r : Wiegand) :
    wiegandNoise code (wiegandTimeout now r) = wiegandNoise code r := by
  unfold wiegandTimeout; split <;> rfl

theorem openPulse_of_active (busy : r.activeLine ≠ none) : openPulse L now r = wiegandNoise .concurrentLines r := by
  obtain ⟨M, hM⟩ := Option.ne_none_iff_exists'.mp busy
  simp [openPulse, hM]

theorem openPulse_of_idle (idle : r.activeLine = none) :
    openPulse L now r = { r with activeLine := some L, lastBitTs := now } := by
  simp [openPulse, idle]

theorem fallingEdge_of_early (early : r.bitCount ≠ 0 ∧ now - r.lastBitTs < r.itvlMin) :
    fallingEdge L now r = wiegandNoise .pulseTooEarly r := if_pos (decide_eq_true early)

theorem fallingEdge_of_not_early (h : ¬ (r.bitCount ≠ 0 ∧ now - r.lastBitTs < r.itvlMin)) :
    fallingEdge L now r = openPulse L now (wiegandTimeout now r) := if_neg (by simpa [pulseTooEarly] using h)

theorem fallingEdge_of_concurrent (h : ¬ (r.bitCount ≠ 0 ∧ now - r.lastBitTs < r.itvlMin)) (busy : r.activeLine ≠ none) :
    fallingEdge L now r = wiegandNoise .concurrentLines r := by
  rw [fallingEdge_of_not_early h, openPulse_of_active (by rwa [wiegandTimeout_activeLine]), wiegandNoise_wiegandTimeout]

theorem fallingEdge_of_idle (h : ¬ (r.bitCount ≠ 0 ∧ now - r.lastBitTs < r.itvlMin)) (idle : r.activeLine = none) :
    fallingEdge L now r = { wiegandTimeout now r with activeLine := some L, lastBitTs := now } := by
  rw [fallingEdge_of_not_early h, openPulse_of_idle (by rwa [wiegandTimeout_activeLine])]

theorem wiegandTimeout_of_late (h : r.bitCount ≠ 0 ∧ r.itvlMax < now - r.lastBitTs) :
    wiegandTimeout now r = { r with word := 0, bitCount := 0 } := if_pos h

theorem wiegandTimeout_of_not_late (h : ¬ (r.bitCount ≠ 0 ∧ r.itvlMax < now - r.lastBitTs)) : wiegandTimeout now r = r := if_neg h

/-! ### A rising edge (R407) -/

theorem risingEdge_of_unexpected (h : r.activeLine ≠ some L) : risingEdge L now r = wiegandNoise .unexpectedLine r := if_pos h

theorem risingEdge_of_active (h : r.activeLine = some L) : risingEdge L now r = closePulse L now r := if_neg (not_not.mpr h)

theorem closePulse_of_full (full : 64 ≤ r.bitCount.toNat) : closePulse L now r = { r with activeLine := none } := if_pos full

theorem closePulse_of_bad_width (room : ¬ 64 ≤ r.bitCount.toNat)
    (bad : now - r.lastBitTs < r.widthMin ∨ r.widthMax < now - r.lastBitTs) :
    closePulse L now r = wiegandNoise .badPulseWidth r := (if_neg room).trans (if_pos bad)

theorem closePulse_of_good_width (room : ¬ 64 ≤ r.bitCount.toNat)
    (good : ¬ (now - r.lastBitTs < r.widthMin ∨ r.widthMax < now - r.lastBitTs)) :
    closePulse L now r = { r with activeLine := none, word := shiftIn r.word L.bit, bitCount := r.bitCount + 1 } :=
  (if_neg room).trans (if_neg good)

end

/-! ### Noise -/

/-- A notification keeps the noise code, records REPEATED_EDGE, or records a code with a decoder reset (60_exceptions.md R803). -/
theorem wiegandEdge_noise_cases (L : Line) (level : Bool) (now : Micros) (r : Wiegand) :
    (wiegandEdge L level now r).noise = r.noise ∨ (wiegandEdge L level now r).noise = .repeatedEdge ∨
      ∃ code low, wiegandEdge L level now r = wiegandNoise code (r.setWasLow L low) := by
  rcases wiegandEdge_cases L level now r with ⟨-, h⟩ | ⟨-, -, h⟩ | ⟨-, -, -, -, h⟩ | ⟨-, -, -, -, -, h⟩ |
    ⟨-, -, -, -, -, h⟩ | ⟨-, -, -, -, h⟩ | ⟨-, -, -, -, -, h⟩ | ⟨-, -, -, -, -, -, h⟩ | ⟨-, -, -, -, -, -, h⟩ <;> rw [h]
  · exact .inl rfl
  · exact .inr (.inl rfl)
  · exact .inr (.inr ⟨_, _, rfl⟩)
  · exact .inr (.inr ⟨_, _, wiegandNoise_wiegandTimeout _ now _⟩)
  · left
    unfold wiegandTimeout
    split <;> simp
  · exact .inr (.inr ⟨_, _, rfl⟩)
  · exact .inl (setWasLow_noise r L false)
  · exact .inr (.inr ⟨_, _, rfl⟩)
  · exact .inl (setWasLow_noise r L false)

/-! ### The event of a line -/

theorem exec_evW (n : WIdx) (L : Line) (level : Bool) (s : State) :
    exec (evW n L level) s = .next (s.setW n (wiegandEdge L level s.now (s.w n))).silent := by
  cases L <;> rfl

/-- The event runs the notification on its record, has no response, and leaves the rest as it was. -/
theorem exists_exec_evW (n : WIdx) (L : Line) (level : Bool) (s : State) :
    ∃ t, exec (evW n L level) s = .next t ∧ t.w n = wiegandEdge L level s.now (s.w n) ∧ t.resp = none ∧ OnlyWiegand n s t :=
  ⟨_, exec_evW n L level s, by simp, rfl, onlyWiegand_setW s n _ none⟩

end Sys2Proof.Machine
end

section
/-! What the event of a Wiegand line does to its record, and what it leaves alone (41_wiegand.md R401 to R407, R431 to R434). -/

namespace Sys2Proof.Machine

/-- Settles O33. -/
theorem disabledWiegandEventIsIgnored : Obligations.DisabledWiegandEventIsIgnored := by
  intro n L level s off
  rw [exec_evW, wiegandEdge_of_disabled off, setW_self, State.silent]

/-- Settles O34. -/
theorem repeatedEdgeKeepsTheWord : Obligations.RepeatedEdgeKeepsTheWord := by
  intro n L level s on same
  have hsame : isLow level = (s.w n).wasLow L := by rw [← same]; cases level <;> rfl
  rw [← wiegandEdge_of_repeated (now := s.now) on hsame]
  exact exists_exec_evW n L level s

/-- Settles O35, by the branches of the statement: each is one equation of `fallingEdge`. -/
theorem fallingEdgeOfAWiegandLine : Obligations.FallingEdgeOfAWiegandLine := by
  intro n L s on high
  obtain ⟨t, hnext, hrecord, hresp, frame⟩ := exists_exec_evW n L false s
  refine ⟨t, hnext, hresp, frame, ?_⟩
  rw [hrecord, wiegandEdge_fall on high]
  extract_lets r diff fresh
  split
  · next early => exact fallingEdge_of_early early
  · next notEarly =>
    split
    · next busy => exact fallingEdge_of_concurrent notEarly busy
    · next idle =>
      rw [fallingEdge_of_idle notEarly (not_not.mp idle)]
      by_cases late : fresh
      · rw [wiegandTimeout_of_late late, if_pos late, if_pos late]
      · rw [wiegandTimeout_of_not_late late, if_neg late, if_neg late]

theorem Line.bit_eq_ite (L : Line) : L.bit = if L = .d1 then 1 else 0 := by cases L <;> rfl

/-- Settles O36, by the branches of the statement: each is one equation of `risingEdge`. -/
theorem risingEdgeOfAWiegandLine : Obligations.RisingEdgeOfAWiegandLine := by
  intro n L s on low
  obtain ⟨t, hnext, hrecord, hresp, frame⟩ := exists_exec_evW n L true s
  refine ⟨t, hnext, hresp, frame, ?_⟩
  rw [hrecord, wiegandEdge_rise on low]
  extract_lets r width
  split
  · next unexpected => exact risingEdge_of_unexpected unexpected
  · next active =>
    rw [risingEdge_of_active (not_not.mp active)]
    split
    · next full => exact closePulse_of_full full
    · next room =>
      split
      · next bad => exact closePulse_of_bad_width room bad
      · next good => rw [closePulse_of_good_width room good, shiftIn, Line.bit_eq_ite]

/-- Settles O37: R404 and R405 are two equations of `fallingEdge`, and only the first records a code. -/
theorem earlyAndLatePulsesDiffer : Obligations.EarlyAndLatePulsesDiffer := by
  intro n L s on high held
  obtain ⟨t, hnext, hrecord, -, -⟩ := exists_exec_evW n L false s
  rw [wiegandEdge_fall on high] at hrecord
  refine ⟨fun early => ⟨t, hnext, ?_⟩, fun notEarly late idle => ⟨t, hnext, ?_⟩⟩
  · rw [hrecord, fallingEdge_of_early (by simpa using ⟨held, early⟩)]
    simp [wiegandNoise, wiegandReset]
  · rw [hrecord, fallingEdge_of_idle (by simpa using fun _ => notEarly) (by simpa using idle),
      wiegandTimeout_of_late (by simpa using ⟨held, late⟩)]
    simp

/-- Settles O38: a notification that changes the code to another than REPEATED_EDGE ends in a decoder reset. -/
theorem noiseLeavesACleanDecoder : Obligations.NoiseLeavesACleanDecoder := by
  intro n L level s t hexec hchanged hnotRepeated
  obtain ⟨u, hnext, hrecord, -, -⟩ := exists_exec_evW n L level s
  cases hexec.symm.trans hnext
  rw [hrecord] at hchanged hnotRepeated ⊢
  rcases wiegandEdge_noise_cases L level s.now (s.w n) with hkept | hrepeated | ⟨code, low, hedge⟩
  · exact absurd hkept hchanged
  · exact absurd hrepeated hnotRepeated
  · rw [hedge]
    exact ⟨rfl, rfl, rfl, setWasLow_lastBitTs (s.w n) L low⟩

/-- Settles O39: no notification and no clock edge changes the settings of its record (`wiegandEdge_settings`, `clockEdge_settings`). -/
theorem noiseIsSoft : Obligations.NoiseIsSoft := by
  refine ⟨fun n L level s => ?_, fun j data s => ?_⟩
  · obtain ⟨t, hnext, hrecord, -, frame⟩ := exists_exec_evW n L level s
    refine ⟨t, hnext, frame, ?_⟩
    rw [hrecord]
    exact wiegandEdge_settings L level s.now (s.w n)
  · refine ⟨(s.setCd j (clockEdge data s.now (s.cd j))).silent, rfl, onlyClockData_setCd s j _ none, ?_⟩
    rw [silent_cd, setCd_cd_same]
    exact clockEdge_settings data s.now (s.cd j)

end Sys2Proof.Machine
end

section
/-! Steps to come that only give events of decoders: each is admitted, and after it the rest are still to come (60_exceptions.md R814;
43_debounce.md R602). -/

namespace Sys2Proof.Machine

/-- The steps to come, at times that do not decrease, satisfy the premise of R814 and pass no pending deadline. -/
structure State.EventsAhead (s : State) (xs : List StepInput) : Prop where
  notFresh : s.fresh = false
  inputs : s.inputs = xs
  deadlines : s.NoDeadlinePasses
  times : TimesRise s.now (xs.map StepInput.now)

section
variable {s t : State} {x : StepInput} {rest : List StepInput}

theorem pastDeadline_eq_false {now : Micros} {d : Debounce} (h : ∀ L deadline, d.pend = .armed L deadline → now ≤ deadline) :
    pastDeadline now d = false := by
  unfold pastDeadline
  split
  · rfl
  · next L deadline hpend => exact decide_eq_false (BitVec.not_lt.mpr (h L deadline hpend))

/-- A step that touches no filter is admitted by its time. -/
theorem State.EventsAhead.refusalByTime_eq_none (h : s.EventsAhead (x :: rest)) (htouch : touchedFilter x.desc = none) :
    s.refusalByTime x = none := by
  obtain ⟨hle, hfits, -⟩ := h.times
  have hmem : x ∈ s.inputs := by simp [h.inputs]
  refine (refusalByTime_eq_none_iff s x).mpr ⟨hfits, by simp [h.notFresh], fun _ => hle, fun d hd => ?_, ?_⟩
  · exact pastDeadline_eq_false fun L deadline hpend => h.deadlines d hd L deadline hpend x hmem
  · simp [State.touchesDue, htouch]

/-- A step that changes no filter leaves the rest of the steps ahead. -/
theorem State.EventsAhead.tail (h : s.EventsAhead (x :: rest)) (hfresh : t.fresh = false) (hinputs : t.inputs = rest)
    (hnow : t.now = x.now) (hdeb : t.deb = s.deb) : t.EventsAhead rest where
  notFresh := hfresh
  inputs := hinputs
  deadlines d hd L deadline hpend y hy :=
    h.deadlines d (hdeb ▸ hd) L deadline hpend y (by rw [h.inputs]; exact List.mem_cons_of_mem x (hinputs ▸ hy))
  times := hnow ▸ h.times.2.2

end

/-- One step and the run after it. -/
theorem run_succ {s t : State} (h : step s = .next t) (k : Nat) :
    Host.Core.run Sys2Proof.core (k + 1) s = Host.Core.run Sys2Proof.core k t := by
  have hcore : Sys2Proof.core.step s = .next t := h
  simp only [Host.Core.run, hcore]

end Sys2Proof.Machine
end

section
/-! The decoding law of a Wiegand instance (41_wiegand.md R430): one pulse inside its windows on a record with no pulse open, a train of
them on the record, and the steps that bring the train. -/

namespace Sys2Proof.Machine

/-! ### One pulse -/

/-- An enabled record with no pulse open and both lines high. -/
structure Wiegand.Ready (r : Wiegand) : Prop where
  enabled : r.enabled = true
  idle : r.activeLine = none
  high : ∀ L, r.wasLow L = false

/-- The bit of a pulse: 1 for D1. -/
def Pulse.bit (p : Pulse) : Bool := decide (p.line = .d1)

theorem Pulse.toNat_line_bit (p : Pulse) : p.line.bit.toNat = p.bit.toNat := by
  unfold Pulse.bit
  cases p.line <;> rfl

/-- The record after both edges of a pulse. -/
def pulseEdges (p : Pulse) (r : Wiegand) : Wiegand := wiegandEdge p.line true p.rise (wiegandEdge p.line false p.fall r)

/-- What an accepted pulse makes of a record: its timestamp, and its bit while there is room. -/
def Wiegand.accept (p : Pulse) (r : Wiegand) : Wiegand :=
  { r with
    lastBitTs := p.fall
    word := if 64 ≤ r.bitCount.toNat then r.word else shiftIn r.word p.line.bit
    bitCount := if 64 ≤ r.bitCount.toNat then r.bitCount else r.bitCount + 1 }

/-- A record with a pulse open on a line. -/
def Wiegand.pulsing (L : Line) (now : Micros) (r : Wiegand) : Wiegand := { r with activeLine := some L, lastBitTs := now }

theorem wasLow_pulsing (L M : Line) (now : Micros) (r : Wiegand) : (r.pulsing L now).wasLow M = r.wasLow M := by cases M <;> rfl

section
variable {r : Wiegand} {p : Pulse}

/-- R404 to R406 for a falling edge inside the interval window. -/
theorem wiegandEdge_fall_of_ready {L : Line} {now : Micros} (h : r.Ready)
    (interval : r.bitCount ≠ 0 → r.itvlMin ≤ now - r.lastBitTs ∧ now - r.lastBitTs ≤ r.itvlMax) :
    wiegandEdge L false now r = (r.pulsing L now).setWasLow L true := by
  have notEarly : ¬ (r.bitCount ≠ 0 ∧ now - r.lastBitTs < r.itvlMin) :=
    fun ⟨held, early⟩ => BitVec.not_lt.mpr (interval held).1 early
  have notLate : ¬ (r.bitCount ≠ 0 ∧ r.itvlMax < now - r.lastBitTs) :=
    fun ⟨held, late⟩ => BitVec.not_lt.mpr (interval held).2 late
  rw [wiegandEdge_fall h.enabled (h.high L), fallingEdge_of_idle (by simpa using notEarly) (by simp [h.idle]),
    wiegandTimeout_of_not_late (by simpa using notLate)]
  cases L <;> rfl

/-- R407 for the rising edge of the open pulse, with its width in the window. -/
theorem wiegandEdge_rise_of_pulsing (h : r.Ready) (width : r.widthMin ≤ p.rise - p.fall ∧ p.rise - p.fall ≤ r.widthMax) :
    wiegandEdge p.line true p.rise ((r.pulsing p.line p.fall).setWasLow p.line true) = r.accept p := by
  have hclosed : ((r.pulsing p.line p.fall).setWasLow p.line true).setWasLow p.line false = r.pulsing p.line p.fall := by
    rw [setWasLow_setWasLow, setWasLow_eq_self ((wasLow_pulsing ..).trans (h.high p.line))]
  rw [wiegandEdge_rise (by simpa [Wiegand.pulsing] using h.enabled) (wasLow_setWasLow ..), hclosed, risingEdge_of_active rfl]
  by_cases full : 64 ≤ r.bitCount.toNat
  · rw [closePulse_of_full (r := r.pulsing p.line p.fall) full]
    simp [Wiegand.pulsing, Wiegand.accept, full, h.idle]
  · have good : ¬ (p.rise - p.fall < r.widthMin ∨ r.widthMax < p.rise - p.fall) :=
      not_or.mpr ⟨BitVec.not_lt.mpr width.1, BitVec.not_lt.mpr width.2⟩
    rw [closePulse_of_good_width (r := r.pulsing p.line p.fall) full good]
    simp [Wiegand.pulsing, Wiegand.accept, full, h.idle]

theorem pulseEdges_eq_accept (h : r.Ready)
    (interval : r.bitCount ≠ 0 → r.itvlMin ≤ p.fall - r.lastBitTs ∧ p.fall - r.lastBitTs ≤ r.itvlMax)
    (width : r.widthMin ≤ p.rise - p.fall ∧ p.rise - p.fall ≤ r.widthMax) : pulseEdges p r = r.accept p := by
  rw [pulseEdges, wiegandEdge_fall_of_ready h interval, wiegandEdge_rise_of_pulsing h width]

/-! ### The accepted bit -/

theorem Wiegand.Ready.accept (h : r.Ready) : (r.accept p).Ready := ⟨h.enabled, h.idle, h.high⟩

theorem accept_of_full (full : 64 ≤ r.bitCount.toNat) : r.accept p = { r with lastBitTs := p.fall } := by
  simp [Wiegand.accept, full]

theorem toNat_bitCount_accept (room : ¬ 64 ≤ r.bitCount.toNat) : (r.accept p).bitCount.toNat = r.bitCount.toNat + 1 := by
  simp only [Wiegand.accept, room, if_false]
  rw [BitVec.toNat_add_of_lt] <;> simp; omega

theorem bitCount_accept_ne_zero : (r.accept p).bitCount ≠ 0 := by
  intro hzero
  have hnat : (r.accept p).bitCount.toNat = 0 := congrArg BitVec.toNat hzero
  by_cases full : 64 ≤ r.bitCount.toNat
  · have hkept : (r.accept p).bitCount = r.bitCount := if_pos full
    rw [hkept] at hnat
    omega
  · rw [toNat_bitCount_accept full] at hnat
    omega

theorem toNat_shiftIn {word bit : Word} (hword : word.toNat < 2 ^ 63) (hbit : bit.toNat < 2) :
    (shiftIn word bit).toNat = 2 * word.toNat + bit.toNat := by
  have hshift : (word <<< 1).toNat = word.toNat <<< 1 := by
    rw [BitVec.toNat_shiftLeft, Nat.mod_eq_of_lt (by rw [Nat.shiftLeft_eq]; omega)]
  rw [shiftIn, BitVec.toNat_or, hshift, ← Nat.shiftLeft_add_eq_or_of_lt (by simpa using hbit), Nat.shiftLeft_eq]
  omega

theorem toNat_word_accept (fit : BitsFit r.word r.bitCount) (room : ¬ 64 ≤ r.bitCount.toNat) :
    (r.accept p).word.toNat = 2 * r.word.toNat + p.bit.toNat := by
  have hword : r.word.toNat < 2 ^ 63 :=
    (fit.2 (by omega)).trans_le (Nat.pow_le_pow_right (by decide) (by omega))
  simp only [Wiegand.accept, room, if_false]
  rw [toNat_shiftIn hword (Line.bit_lt_two _), Pulse.toNat_line_bit]

theorem bitsFit_accept (fit : BitsFit r.word r.bitCount) : BitsFit (r.accept p).word (r.accept p).bitCount := by
  by_cases full : 64 ≤ r.bitCount.toNat
  · rw [accept_of_full full]; exact fit
  · simpa only [Wiegand.accept, full, if_false] using fit.append full (Line.bit_lt_two _)

end

/-! ### A train of pulses on the record -/

/-- The record after a train of pulses. -/
def trainEdges : List Pulse → Wiegand → Wiegand
  | [], r => r
  | p :: ps, r => trainEdges ps (pulseEdges p r)

/-- The falling edge against which the first of the next train is timed: none while no bit is held (R404, R405). -/
def Wiegand.lastFall (r : Wiegand) : List Micros := if r.bitCount = 0 then [] else [r.lastBitTs]

/-- A train inside the windows of a record, its first interval included when a bit is held. -/
structure Wiegand.TrainFits (r : Wiegand) (ps : List Pulse) : Prop where
  widths : WidthsFit r ps
  intervals : IntervalsFit r.itvlMin r.itvlMax (r.lastFall ++ ps.map Pulse.fall)

section
variable {r : Wiegand} {p : Pulse} {ps : List Pulse}

theorem Wiegand.TrainFits.first_interval (h : r.TrainFits (p :: ps)) (held : r.bitCount ≠ 0) :
    r.itvlMin ≤ p.fall - r.lastBitTs ∧ p.fall - r.lastBitTs ≤ r.itvlMax := by
  have hfit := h.intervals
  rw [Wiegand.lastFall, if_neg held] at hfit
  exact ⟨hfit.1, hfit.2.1⟩

theorem Wiegand.TrainFits.accept (h : r.TrainFits (p :: ps)) : (r.accept p).TrainFits ps where
  widths q hq := h.widths q (List.mem_cons_of_mem p hq)
  intervals := by
    rw [Wiegand.lastFall, if_neg bitCount_accept_ne_zero]
    have hfit := h.intervals
    by_cases held : r.bitCount = 0
    · rwa [Wiegand.lastFall, if_pos held] at hfit
    · rw [Wiegand.lastFall, if_neg held] at hfit
      exact hfit.2.2

theorem Wiegand.TrainFits.pulseEdges_eq (h : r.TrainFits (p :: ps)) (ready : r.Ready) : pulseEdges p r = r.accept p :=
  pulseEdges_eq_accept ready h.first_interval (h.widths p List.mem_cons_self)

end

/-- A number with bits appended at its low end, the first most significant. -/
def appendBits (a : Nat) (bits : List Bool) : Nat := bits.foldl (fun a b => 2 * a + b.toNat) a

/-- What a train leaves in the record: the bits that fit in 64 are counted and appended. -/
structure Decodes (ps : List Pulse) (r q : Wiegand) : Prop where
  count : q.bitCount.toNat = min (r.bitCount.toNat + ps.length) 64
  word : q.word.toNat = appendBits r.word.toNat ((ps.take (64 - r.bitCount.toNat)).map Pulse.bit)
  idle : q.activeLine = none
  noise : q.noise = r.noise

/-- A pulse in front of a train: while there is room its bit stands above those of the train, and after that it is dropped. -/
theorem Decodes.cons {p : Pulse} {ps : List Pulse} {r q : Wiegand} (fit : BitsFit r.word r.bitCount)
    (h : Decodes ps (r.accept p) q) : Decodes (p :: ps) r q := by
  obtain ⟨count, word, idle, noise⟩ := h
  have hle := fit.1
  by_cases full : 64 ≤ r.bitCount.toNat
  · rw [accept_of_full full] at count word
    have h64 : r.bitCount.toNat = 64 := by omega
    refine ⟨by simp only [count, h64, List.length_cons]; omega, ?_, idle, noise⟩
    simpa [h64] using word
  · rw [toNat_bitCount_accept full] at count word
    rw [toNat_word_accept fit full] at word
    refine ⟨by rw [count, List.length_cons]; omega, ?_, idle, noise⟩
    have hroom : 64 - r.bitCount.toNat = (64 - (r.bitCount.toNat + 1)) + 1 := by omega
    rw [word, hroom, List.take_succ_cons, List.map_cons]
    rfl

theorem trainEdges_decodes (ps : List Pulse) {r : Wiegand} (ready : r.Ready) (fit : BitsFit r.word r.bitCount)
    (h : r.TrainFits ps) : Decodes ps r (trainEdges ps r) := by
  induction ps generalizing r with
  | nil => exact ⟨by simpa [trainEdges] using fit.1, by simp [trainEdges, appendBits], ready.idle, rfl⟩
  | cons p ps ih =>
    rw [trainEdges, h.pulseEdges_eq ready]
    exact (ih ready.accept (bitsFit_accept fit) h.accept).cons fit

/-! ### The steps of a train -/

theorem touchedFilter_evW (n : WIdx) (L : Line) (level : Bool) : touchedFilter (encode (evW n L level)) = none := by
  cases L <;> simp [evW, encode, evt, touchedFilter]

theorem wf_evW (nDi : Nat) (n : WIdx) (L : Line) (level : Bool) : (evW n L level).wf nDi = true := by cases L <;> rfl

/-- The next step gives an event of W[n]: it runs the notification at its time, and leaves the rest ahead. -/
theorem State.EventsAhead.step_evW {s : State} {n : WIdx} {L : Line} {level : Bool} {now : Micros} {rest : List StepInput}
    (h : s.EventsAhead (eventAt (evW n L level) now :: rest)) :
    ∃ t, step s = .next t ∧ t.EventsAhead rest ∧ t.w n = wiegandEdge L level now (s.w n) := by
  have hdecode : s.decodeStep (eventAt (evW n L level) now) = .ok (evW n L level) :=
    encodeThenDecodeIsIdentity s.cfg.nDi _ (wf_evW s.cfg.nDi n L level)
  have hstep := step_of_decodeStep_ok h.inputs (h.refusalByTime_eq_none (touchedFilter_evW n L level)) hdecode
  obtain ⟨t, hnext, hrecord, -, -, -, hdeb, -, -, hnow, hfresh, -, -, hinputs⟩ :=
    exists_exec_evW n L level (s.latch (eventAt (evW n L level) now) rest)
  exact ⟨t, hstep.trans hnext, h.tail hfresh hinputs hnow hdeb, hrecord⟩

/-- The steps of a train all complete, and their events run on the record of W[n] in order. -/
theorem run_trainSteps (n : WIdx) (ps : List Pulse) {s : State} (h : s.EventsAhead (trainSteps n ps)) :
    ∃ t, Host.Core.run Sys2Proof.core (2 * ps.length) s = .next t ∧ t.w n = trainEdges ps (s.w n) := by
  induction ps generalizing s with
  | nil => exact ⟨s, rfl, rfl⟩
  | cons p ps ih =>
    obtain ⟨u, hfall, hu, hfallen⟩ := h.step_evW
    obtain ⟨v, hrise, hv, hrisen⟩ := hu.step_evW
    obtain ⟨t, hrun, ht⟩ := ih hv
    refine ⟨t, ?_, by rw [ht, hrisen, hfallen]; rfl⟩
    calc Host.Core.run Sys2Proof.core (2 * ps.length + 1 + 1) s
        = Host.Core.run Sys2Proof.core (2 * ps.length + 1) u := run_succ hfall _
      _ = Host.Core.run Sys2Proof.core (2 * ps.length) v := run_succ hrise _
      _ = .next t := hrun

theorem map_now_trainSteps (n : WIdx) (ps : List Pulse) :
    (trainSteps n ps).map StepInput.now = ps.flatMap fun p => [p.fall, p.rise] := by
  simp [trainSteps, eventAt, List.map_flatMap]

/-- Settles O41: the steps run the train on the record (`run_trainSteps`), and a train inside its windows on a record with no bit held
decodes to its bits (`trainEdges_decodes`). -/
theorem wiegandDecodingLaw : Obligations.WiegandDecodingLaw := by
  intro n s ps on noBit idle high0 high1 noWord notFresh hinputs hdeadlines htimes hwidths hintervals
  have ready : (s.w n).Ready := ⟨on, idle, fun L => by cases L <;> assumption⟩
  have fit : BitsFit (s.w n).word (s.w n).bitCount := by rw [noBit, noWord]; exact bitsFit_zero
  have hfits : (s.w n).TrainFits ps := ⟨hwidths, by rwa [Wiegand.lastFall, if_pos noBit]⟩
  obtain ⟨t, hrun, hrecord⟩ :=
    run_trainSteps n ps ⟨notFresh, hinputs, hdeadlines, by rwa [map_now_trainSteps]⟩
  obtain ⟨count, word, hidle, hnoise⟩ := trainEdges_decodes ps ready fit hfits
  rw [← hrecord, noBit] at count
  rw [← hrecord, noBit, noWord] at word
  exact ⟨t, hrun, by simpa using count, word, hrecord ▸ hidle, hrecord ▸ hnoise⟩

end Sys2Proof.Machine
end

section
/-! Clock-data register accesses (42_clock_data.md R503, R504, R510 to R515; 44_snapshot.md R707, R708): the descriptor of each and what
it does. -/

namespace Sys2Proof.Machine

theorem cdIdx_lt_64 (j : CdIdx) : j.val < 64 := j.isLt.trans (by decide)

/-! ### Reads without side effects -/

/-- Settles O18: each descriptor is its row at INST j, and each meaning is an answer with the field, widened to 64 bits. -/
theorem clockDataRegisterReads : Obligations.ClockDataRegisterReads := by
  intro j s
  have hinst := cdIdx_lt_64 j
  refine ⟨⟨hrd_eq_rowAt hinst, ?_⟩, ⟨hrd_eq_rowAt hinst, ?_⟩, ⟨hrd_eq_rowAt hinst, ?_⟩, ⟨hrd_eq_rowAt hinst, ?_⟩,
    ⟨hrd_eq_rowAt hinst, ?_⟩⟩
  · rw [← zext64_ofBool]; exact answer_eq_next s _
  · exact answer_eq_next s _
  · exact answer_eq_next s _
  · rw [← zext64_eq_ofNat]; exact answer_eq_next s _
  · exact answer_eq_next s _

/-! ### Thresholds -/

theorem OnlyClockData.claim_eq {j : CdIdx} {s t : State} (h : OnlyClockData j s t) : t.claim = s.claim := by
  obtain ⟨-, -, -, hclaim, -⟩ := h
  exact hclaim

/-- A write that stores a record of CD[j] and answers OK, with its frame. -/
theorem exists_answer_setCd (s : State) (j : CdIdx) (r : ClockData) :
    ∃ t, (s.setCd j r).answer 0 = .next t ∧ t.cd j = r ∧ t.resp = some ⟨.ok, 0⟩ ∧ OnlyClockData j s t :=
  ⟨(s.setCd j r).respond .ok 0, rfl, by simp, rfl, onlyClockData_setCd s j r _⟩

/-- Settles O21: both store a record with WDATA in its threshold. -/
theorem clockDataThresholdWrites : Obligations.ClockDataThresholdWrites := by
  intro j s
  have hinst := cdIdx_lt_64 j
  exact ⟨⟨hwr_eq_rowAt hinst, exists_answer_setCd s j _⟩, ⟨hwr_eq_rowAt hinst, exists_answer_setCd s j _⟩⟩

/-! ### Enable and disable -/

section
variable {j : CdIdx} {s : State}

/-! #### The three operands of a write of ENABLED (R510) -/

theorem exec_wrCdEnabled_one (h : s.wdata = 1) : exec (.wrCdEnabled j) s = s.enableCd j := by
  simp [exec, execWrCdEnabled, enabledOperand, h]

theorem exec_wrCdEnabled_zero (h : s.wdata = 0) : exec (.wrCdEnabled j) s = s.disableCd j := by
  simp [exec, execWrCdEnabled, enabledOperand, h]

theorem exec_wrCdEnabled_malformed (h0 : s.wdata ≠ 0) (h1 : s.wdata ≠ 1) : exec (.wrCdEnabled j) s = s.fail .inval := by
  have hmalformed : enabledOperand s.wdata = none := (if_neg h1).trans (if_neg h0)
  simp only [exec, execWrCdEnabled, hmalformed]

/-! #### The paths of `CD_enable` (R503) and `CD_disable` (R504) -/

theorem enableCd_of_enabled (h : (s.cd j).enabled = true) : s.enableCd j = s.answer 0 := if_pos h

theorem enableCd_of_held (off : (s.cd j).enabled = false) (held : s.pairHeld (cdLines s.cfg j) = true) :
    s.enableCd j = s.fail .busy := by
  simp [State.enableCd, off, held]

theorem enableCd_of_free (off : (s.cd j).enabled = false) (free : s.pairHeld (cdLines s.cfg j) = false) :
    s.enableCd j = ((s.claimPair (cdLines s.cfg j) (.cd j)).setCd j (clockDataEnabled (s.cd j))).answer 0 := by
  simp [State.enableCd, off, free]

theorem disableCd_of_disabled (h : (s.cd j).enabled = false) : s.disableCd j = s.answer 0 := by
  simp [State.disableCd, h]

theorem disableCd_of_enabled (h : (s.cd j).enabled = true) :
    s.disableCd j = ((s.releasePair (cdLines s.cfg j)).setCd j { s.cd j with enabled := false }).answer 0 := if_pos h

end

/-- Settles O24, path by path of `CD_enable`; the free path stores the record in a state that differs from `s` only in its claims. -/
theorem clockDataEnableWrite : Obligations.ClockDataEnableWrite := by
  intro j s
  refine ⟨hwr_eq_rowAt (cdIdx_lt_64 j), fun h0 h1 => ?_, fun h1 on => ?_, fun h1 off held => ?_,
    fun h1 off free free' => ?_⟩
  · rw [exec_wrCdEnabled_malformed h0 h1, fail_eq_next]
  · rw [exec_wrCdEnabled_one h1, enableCd_of_enabled on, answer_eq_next]
  · rw [exec_wrCdEnabled_one h1, enableCd_of_held off (pairHeld_iff_lineHeld.mpr held), fail_eq_next]
  · have hfree : s.pairHeld (cdLines s.cfg j) = false :=
      Bool.eq_false_iff.mpr (mt pairHeld_iff_lineHeld.mp (not_or.mpr ⟨free, free'⟩))
    obtain ⟨t, hnext, hrecord, hresp, frame⟩ :=
      exists_answer_setCd (s.claimPair (cdLines s.cfg j) (.cd j)) j (clockDataEnabled (s.cd j))
    rw [exec_wrCdEnabled_one h1, enableCd_of_free off hfree]
    exact ⟨t, hnext, hrecord, hresp, claimsBecome_of_claimPair frame.claim_eq, frame.andClaims⟩

/-- Settles O25: the enabled path stores the record in a state that differs from `s` only in its claims. -/
theorem clockDataDisableWrite : Obligations.ClockDataDisableWrite := by
  intro j s h0
  refine ⟨fun off => ?_, fun on => ?_⟩
  · rw [exec_wrCdEnabled_zero h0, disableCd_of_disabled off, answer_eq_next]
  · obtain ⟨t, hnext, hrecord, hresp, frame⟩ :=
      exists_answer_setCd (s.releasePair (cdLines s.cfg j)) j { s.cd j with enabled := false }
    rw [exec_wrCdEnabled_zero h0, disableCd_of_enabled on]
    exact ⟨t, hnext, hrecord, hresp, claimsBecome_of_releasePair frame.claim_eq, frame.andClaims⟩

end Sys2Proof.Machine
end

section
/-! The clock edge as equations, one per path of 42_clock_data.md R502, and the event that runs it (R516). -/

namespace Sys2Proof.Machine

section
variable {data : Bool} {now : Micros} {r : ClockData}

theorem clockEdge_of_disabled (off : r.enabled = false) : clockEdge data now r = r := if_pos off

theorem clockEdge_of_early (on : r.enabled = true) (early : r.bitCount ≠ 0 ∧ now - r.lastClockTs < r.periodMin) :
    clockEdge data now r = { r with noise := .clockTooEarly, word := 0, bitCount := 0 } := by
  have hearly : clockTooEarly now r = true := decide_eq_true early
  simp [clockEdge, on, hearly, clockDataReset]

theorem clockEdge_of_not_early (on : r.enabled = true) (h : ¬ (r.bitCount ≠ 0 ∧ now - r.lastClockTs < r.periodMin)) :
    clockEdge data now r = sampleData data { clockDataTimeout now r with lastClockTs := now } := by
  have hnotEarly : clockTooEarly now r = false := decide_eq_false h
  simp [clockEdge, on, hnotEarly]

theorem clockDataTimeout_of_late (h : r.bitCount ≠ 0 ∧ r.periodMax < now - r.lastClockTs) :
    clockDataTimeout now r = { r with word := 0, bitCount := 0 } := if_pos h

theorem clockDataTimeout_of_not_late (h : ¬ (r.bitCount ≠ 0 ∧ r.periodMax < now - r.lastClockTs)) :
    clockDataTimeout now r = r := if_neg h

theorem sampleData_of_full (full : 64 ≤ r.bitCount.toNat) : sampleData data r = r := if_pos full

theorem sampleData_of_room (room : ¬ 64 ≤ r.bitCount.toNat) :
    sampleData data r = { r with word := shiftIn r.word (clockBit data), bitCount := r.bitCount + 1 } := if_neg room

/-- The first bit of a word is the whole word. -/
theorem sampleData_of_empty (hword : r.word = 0) (hcount : r.bitCount = 0) :
    sampleData data r = { r with word := clockBit data, bitCount := 1 } := by
  simp [sampleData, hword, hcount, shiftIn]

/-- The edge of an enabled instance inside its period window, or with no bit held. -/
theorem clockEdge_of_period (on : r.enabled = true)
    (period : r.bitCount ≠ 0 → r.periodMin ≤ now - r.lastClockTs ∧ now - r.lastClockTs ≤ r.periodMax) :
    clockEdge data now r = sampleData data { r with lastClockTs := now } := by
  rw [clockEdge_of_not_early on fun ⟨held, early⟩ => BitVec.not_lt.mpr (period held).1 early,
    clockDataTimeout_of_not_late fun ⟨held, late⟩ => BitVec.not_lt.mpr (period held).2 late]

end

/-- The event runs the edge on its record, has no response, and leaves the rest as it was. -/
theorem exists_exec_evCdClk (j : CdIdx) (data : Bool) (s : State) :
    ∃ t, exec (.evCdClk j data) s = .next t ∧ t.cd j = clockEdge data s.now (s.cd j) ∧ t.resp = none ∧ OnlyClockData j s t :=
  ⟨(s.setCd j (clockEdge data s.now (s.cd j))).silent, rfl, by simp, rfl, onlyClockData_setCd s j _ none⟩

/-- Settles O42, by the branches of the statement: each is one path of `clockEdge`. -/
theorem clockEdgeSamplesTheDataLine : Obligations.ClockEdgeSamplesTheDataLine := by
  intro j data s
  obtain ⟨t, hnext, hrecord, hresp, frame⟩ := exists_exec_evCdClk j data s
  refine ⟨t, hnext, hresp, frame, hrecord.trans ?_⟩
  extract_lets r diff fresh
  split
  · next off => exact clockEdge_of_disabled off
  · next notOff =>
    have on : r.enabled = true := Bool.not_eq_false _ ▸ notOff
    split
    · next early => exact clockEdge_of_early on early
    · next notEarly =>
      rw [clockEdge_of_not_early on notEarly]
      split
      · next late => rw [clockDataTimeout_of_late late, sampleData_of_empty rfl rfl, clockBit]
      · next notLate =>
        rw [clockDataTimeout_of_not_late notLate]
        split
        · next full => exact sampleData_of_full full
        · next room => exact sampleData_of_room room

end Sys2Proof.Machine
end

section
/-! The decoding law of a clock-data instance (42_clock_data.md R520): one edge inside its window, a train of them on the record, and the
steps that bring the train. -/

namespace Sys2Proof.Machine

/-! ### One accepted edge -/

/-- What an edge inside its window makes of a record: its timestamp, and its bit while there is room. -/
def ClockData.accept (e : Bool × Micros) (r : ClockData) : ClockData := sampleData e.1 { r with lastClockTs := e.2 }

section
variable {r : ClockData} {e : Bool × Micros}

theorem ClockData.accept_of_full (full : 64 ≤ r.bitCount.toNat) : r.accept e = { r with lastClockTs := e.2 } :=
  sampleData_of_full (r := { r with lastClockTs := e.2 }) full

theorem ClockData.accept_of_room (room : ¬ 64 ≤ r.bitCount.toNat) :
    r.accept e =
      { r with lastClockTs := e.2, word := shiftIn r.word (clockBit e.1), bitCount := r.bitCount + 1 } :=
  sampleData_of_room (r := { r with lastClockTs := e.2 }) room

/-- The fields that an accepted edge sets the same way in a full word and in one with room. -/
theorem ClockData.accept_kept (e : Bool × Micros) (r : ClockData) :
    (r.accept e).enabled = r.enabled ∧ (r.accept e).periodMin = r.periodMin ∧ (r.accept e).periodMax = r.periodMax ∧
      (r.accept e).lastClockTs = e.2 ∧ (r.accept e).noise = r.noise := by
  by_cases full : 64 ≤ r.bitCount.toNat
  · rw [accept_of_full full]; exact ⟨rfl, rfl, rfl, rfl, rfl⟩
  · rw [accept_of_room full]; exact ⟨rfl, rfl, rfl, rfl, rfl⟩

theorem ClockData.toNat_bitCount_accept (room : ¬ 64 ≤ r.bitCount.toNat) :
    (r.accept e).bitCount.toNat = r.bitCount.toNat + 1 := by
  rw [accept_of_room room, BitVec.toNat_add_of_lt] <;> simp; omega

theorem ClockData.bitCount_accept_ne_zero : (r.accept e).bitCount ≠ 0 := by
  intro hzero
  have hnat : (r.accept e).bitCount.toNat = 0 := congrArg BitVec.toNat hzero
  by_cases full : 64 ≤ r.bitCount.toNat
  · have hkept : (r.accept e).bitCount = r.bitCount := by rw [accept_of_full full]
    rw [hkept] at hnat
    omega
  · rw [toNat_bitCount_accept full] at hnat
    omega

/-- The bit that is appended is the sample inverted. -/
theorem toNat_clockBit (data : Bool) : (clockBit data).toNat = (!data).toNat := by cases data <;> rfl

theorem ClockData.toNat_word_accept (fit : BitsFit r.word r.bitCount) (room : ¬ 64 ≤ r.bitCount.toNat) :
    (r.accept e).word.toNat = 2 * r.word.toNat + (!e.1).toNat := by
  have hword : r.word.toNat < 2 ^ 63 :=
    (fit.2 (by omega)).trans_le (Nat.pow_le_pow_right (by decide) (by omega))
  rw [accept_of_room room, ← toNat_clockBit]
  exact toNat_shiftIn hword (clockBit_lt_two e.1)

theorem ClockData.bitsFit_accept (fit : BitsFit r.word r.bitCount) : BitsFit (r.accept e).word (r.accept e).bitCount := by
  by_cases full : 64 ≤ r.bitCount.toNat
  · rw [accept_of_full full]; exact fit
  · rw [accept_of_room full]; exact fit.append full (clockBit_lt_two e.1)

end

/-! ### A train of edges on the record -/

/-- The record after a train of edges. -/
def clockEdges (es : List (Bool × Micros)) (r : ClockData) : ClockData := es.foldl (fun q e => clockEdge e.1 e.2 q) r

/-- The edge against which the first of the next train is timed: none while no bit is held (R502). -/
def ClockData.lastEdge (r : ClockData) : List Micros := if r.bitCount = 0 then [] else [r.lastClockTs]

/-- A train that an enabled record takes: its periods in the window, the first included when a bit is held. -/
structure ClockData.Takes (r : ClockData) (es : List (Bool × Micros)) : Prop where
  enabled : r.enabled = true
  fit : BitsFit r.word r.bitCount
  periods : IntervalsFit r.periodMin r.periodMax (r.lastEdge ++ es.map Prod.snd)

section
variable {r : ClockData} {e : Bool × Micros} {es : List (Bool × Micros)}

theorem ClockData.Takes.clockEdge_eq (h : r.Takes (e :: es)) : clockEdge e.1 e.2 r = r.accept e := by
  refine clockEdge_of_period h.enabled fun held => ?_
  have hperiods := h.periods
  rw [lastEdge, if_neg held] at hperiods
  obtain ⟨hmin, hmax, -⟩ := hperiods
  exact ⟨hmin, hmax⟩

theorem ClockData.Takes.accept (h : r.Takes (e :: es)) : (r.accept e).Takes es := by
  obtain ⟨henabled, hmin, hmax, hstamp, -⟩ := ClockData.accept_kept e r
  refine ⟨henabled.trans h.enabled, bitsFit_accept h.fit, ?_⟩
  rw [lastEdge, if_neg bitCount_accept_ne_zero, hmin, hmax, hstamp]
  have hperiods := h.periods
  by_cases held : r.bitCount = 0
  · rwa [lastEdge, if_pos held] at hperiods
  · rw [lastEdge, if_neg held] at hperiods
    obtain ⟨-, -, hrest⟩ := hperiods
    exact hrest

end

/-- What a train leaves in the record: the inverted samples that fit in 64 bits are counted and appended, and the last edge is stamped. -/
structure ClockDecodes (es : List (Bool × Micros)) (r q : ClockData) : Prop where
  count : q.bitCount.toNat = min (r.bitCount.toNat + es.length) 64
  word : q.word.toNat = appendBits r.word.toNat ((es.take (64 - r.bitCount.toNat)).map fun e => !e.1)
  stamp : q.lastClockTs = (es.map Prod.snd).getLastD r.lastClockTs
  noise : q.noise = r.noise

/-- An edge in front of a train: while there is room its bit stands above those of the train, and after that it is dropped. -/
theorem ClockDecodes.cons {e : Bool × Micros} {es : List (Bool × Micros)} {r q : ClockData} (fit : BitsFit r.word r.bitCount)
    (h : ClockDecodes es (r.accept e) q) : ClockDecodes (e :: es) r q := by
  obtain ⟨count, word, stamp, noise⟩ := h
  obtain ⟨-, -, -, hstamp, hnoise⟩ := ClockData.accept_kept e r
  have hstamped : q.lastClockTs = ((e :: es).map Prod.snd).getLastD r.lastClockTs := by
    rw [stamp, hstamp, List.map_cons, List.getLastD_cons]
  have hle := fit.1
  by_cases full : 64 ≤ r.bitCount.toNat
  · rw [ClockData.accept_of_full full] at count word
    have h64 : r.bitCount.toNat = 64 := by omega
    refine ⟨by simp only [count, h64, List.length_cons]; omega, ?_, hstamped, noise.trans hnoise⟩
    simpa [h64] using word
  · rw [ClockData.toNat_bitCount_accept full] at count word
    rw [ClockData.toNat_word_accept fit full] at word
    refine ⟨by rw [count, List.length_cons]; omega, ?_, hstamped, noise.trans hnoise⟩
    have hroom : 64 - r.bitCount.toNat = (64 - (r.bitCount.toNat + 1)) + 1 := by omega
    rw [word, hroom, List.take_succ_cons, List.map_cons]
    rfl

theorem clockEdges_decodes (es : List (Bool × Micros)) {r : ClockData} (h : r.Takes es) : ClockDecodes es r (clockEdges es r) := by
  induction es generalizing r with
  | nil => exact ⟨by simpa [clockEdges] using h.fit.1, by simp [clockEdges, appendBits], rfl, rfl⟩
  | cons e es ih =>
    rw [clockEdges, List.foldl_cons, h.clockEdge_eq]
    exact (ih h.accept).cons h.fit

/-! ### The steps of a train -/

/-- The steps that give a train of clock events of CD[j]. -/
def clockSteps (j : CdIdx) (es : List (Bool × Micros)) : List StepInput := es.map fun e => eventAt (.evCdClk j e.1) e.2

theorem map_now_clockSteps (j : CdIdx) (es : List (Bool × Micros)) :
    (clockSteps j es).map StepInput.now = es.map Prod.snd := by
  simp [clockSteps, eventAt]

theorem touchedFilter_evCdClk (j : CdIdx) (data : Bool) : touchedFilter (encode (.evCdClk j data)) = none := by
  simp [encode, evt, touchedFilter]

/-- The next step gives a clock event of CD[j]: it runs the edge at its time, and leaves the rest ahead. -/
theorem State.EventsAhead.step_evCdClk {s : State} {j : CdIdx} {data : Bool} {now : Micros} {rest : List StepInput}
    (h : s.EventsAhead (eventAt (.evCdClk j data) now :: rest)) :
    ∃ t, step s = .next t ∧ t.EventsAhead rest ∧ t.cd j = clockEdge data now (s.cd j) := by
  have hdecode : s.decodeStep (eventAt (.evCdClk j data) now) = .ok (.evCdClk j data) :=
    encodeThenDecodeIsIdentity s.cfg.nDi _ rfl
  have hstep := step_of_decodeStep_ok h.inputs (h.refusalByTime_eq_none (touchedFilter_evCdClk j data)) hdecode
  obtain ⟨t, hnext, hrecord, -, -, -, hdeb, -, -, hnow, hfresh, -, -, hinputs⟩ :=
    exists_exec_evCdClk j data (s.latch (eventAt (.evCdClk j data) now) rest)
  exact ⟨t, hstep.trans hnext, h.tail hfresh hinputs hnow hdeb, hrecord⟩

/-- The steps of a train all complete, and their events run on the record of CD[j] in order. -/
theorem run_clockSteps (j : CdIdx) (es : List (Bool × Micros)) {s : State} (h : s.EventsAhead (clockSteps j es)) :
    ∃ t, Host.Core.run Sys2Proof.core es.length s = .next t ∧ t.cd j = clockEdges es (s.cd j) := by
  induction es generalizing s with
  | nil => exact ⟨s, rfl, rfl⟩
  | cons e es ih =>
    obtain ⟨u, hstep, hu, hedge⟩ := h.step_evCdClk
    obtain ⟨t, hrun, ht⟩ := ih hu
    exact ⟨t, (run_succ hstep es.length).trans hrun, by rw [ht, hedge]; rfl⟩

/-- Settles O43: the steps run the train on the record (`run_clockSteps`), and a train inside its window on a record with no bit held
decodes to its inverted samples (`clockEdges_decodes`). -/
theorem clockDataDecodingLaw : Obligations.ClockDataDecodingLaw := by
  intro j s es on noBit noWord notFresh hinputs hdeadlines htimes hperiods
  have takes : (s.cd j).Takes es :=
    ⟨on, by rw [noBit, noWord]; exact bitsFit_zero, by rwa [ClockData.lastEdge, if_pos noBit]⟩
  obtain ⟨t, hrun, hrecord⟩ :=
    run_clockSteps j es ⟨notFresh, hinputs, hdeadlines, by rwa [map_now_clockSteps]⟩
  obtain ⟨count, word, stamp, noise⟩ := clockEdges_decodes es takes
  rw [← hrecord, noBit] at count
  rw [← hrecord, noBit, noWord] at word
  rw [← hrecord] at stamp noise
  refine ⟨t, hrun, by simpa using count, word, fun e hlast => ?_, noise⟩
  rw [stamp, List.getLastD_eq_getLast?, List.getLast?_map, hlast]
  rfl

end Sys2Proof.Machine
end

section
/-! The operations of a filter that exists (43_debounce.md R610 to R618): each as an equation of `exec`, and what it does. -/

namespace Sys2Proof.Machine

section
variable {s : State} {k : DiIdx} {d : Debounce}

theorem withFilter_of_filter (there : s.filter k = some d) (f : Debounce → Host.Outcome State Fault Refusal) :
    withFilter s k f = f d := by
  simp only [withFilter, there]

theorem withEventFilter_of_filter (there : s.filter k = some d) (f : Debounce → Host.Outcome State Fault Refusal) :
    withEventFilter s k f = f d := by
  simp only [withEventFilter, there]

/-! ### Reads -/

theorem exec_rdDiDeb (there : s.filter k = some d) : exec (.rdDiDeb k) s = s.answer (zext64 d.settled.code) :=
  withFilter_of_filter there _

theorem exec_rdDiOnMs (there : s.filter k = some d) : exec (.rdDiOnMs k) s = s.answer (zext64 d.holdOnMs) :=
  withFilter_of_filter there _

theorem exec_rdDiOffMs (there : s.filter k = some d) : exec (.rdDiOffMs k) s = s.answer (zext64 d.holdOffMs) :=
  withFilter_of_filter there _

theorem exec_rdDiOnCnt (there : s.filter k = some d) : exec (.rdDiOnCnt k) s = s.answer d.onCnt := withFilter_of_filter there _

theorem exec_rdDiOffCnt (there : s.filter k = some d) : exec (.rdDiOffCnt k) s = s.answer d.offCnt := withFilter_of_filter there _

/-! ### Writes of a hold time -/

theorem holdOperand_of_large {v : Word} (h : ¬ v.toNat < 2 ^ 32) : holdOperand v = none := if_neg h

theorem holdOperand_of_fits {v : Word} (h : v.toNat < 2 ^ 32) : holdOperand v = some (v.extractLsb' 0 32) := by
  rw [holdOperand, if_pos h, BitVec.setWidth_eq_extractLsb' (by decide)]

theorem exec_wrDiOnMs_malformed (there : s.filter k = some d) (h : ¬ s.wdata.toNat < 2 ^ 32) :
    exec (.wrDiOnMs k) s = s.fail .inval :=
  (withFilter_of_filter there _).trans (by simp only [holdOperand_of_large h])

theorem exec_wrDiOffMs_malformed (there : s.filter k = some d) (h : ¬ s.wdata.toNat < 2 ^ 32) :
    exec (.wrDiOffMs k) s = s.fail .inval :=
  (withFilter_of_filter there _).trans (by simp only [holdOperand_of_large h])

theorem exec_wrDiOnMs (there : s.filter k = some d) (h : s.wdata.toNat < 2 ^ 32) :
    exec (.wrDiOnMs k) s = (s.setFilter k (debounceReconfig { d with holdOnMs := s.wdata.extractLsb' 0 32 })).answer 0 :=
  (withFilter_of_filter there _).trans (by simp only [holdOperand_of_fits h])

theorem exec_wrDiOffMs (there : s.filter k = some d) (h : s.wdata.toNat < 2 ^ 32) :
    exec (.wrDiOffMs k) s = (s.setFilter k (debounceReconfig { d with holdOffMs := s.wdata.extractLsb' 0 32 })).answer 0 :=
  (withFilter_of_filter there _).trans (by simp only [holdOperand_of_fits h])

/-! ### Events and expiries -/

theorem exec_evDiIn (there : s.filter k = some d) (level : Bool) :
    exec (.evDiIn k level) s = .next (s.setFilter k (debounceEvent level s.now d)).silent := withEventFilter_of_filter there _

theorem exec_sysExpire {level : Bool} (there : s.filter k = some d) (due : d.pend = .armed level s.now) (sample : Bool) :
    exec (.sysExpire k sample) s = .next (s.setFilter k (debounceExpire level sample d)).silent :=
  (withEventFilter_of_filter there _).trans (by simp only [due, if_true])

/-- R602 (d): an expiry of a timer that is idle or has another deadline is refused. -/
theorem exec_sysExpire_of_not_due (there : s.filter k = some d) (notDue : ∀ level, d.pend ≠ .armed level s.now) (sample : Bool) :
    exec (.sysExpire k sample) s = .refused .expireNotDue := by
  refine (withEventFilter_of_filter there _).trans ?_
  split
  · rfl
  · next level deadline hpend =>
    have hne : s.now ≠ deadline := fun heq => notDue level (heq ▸ hpend)
    rw [if_neg hne]

/-! ### The record that is stored, and the frame -/

/-- A write that stores a record of DEB[k] and answers OK, with its frame. -/
theorem exists_answer_setFilter (there : s.filter k = some d) (e : Debounce) :
    ∃ t, (s.setFilter k e).answer 0 = .next t ∧ t.filter k = some e ∧ t.resp = some ⟨.ok, 0⟩ ∧ OnlyDebounce k s t :=
  ⟨(s.setFilter k e).respond .ok 0, rfl, setFilter_filter_same e there, rfl, onlyDebounce_setFilter s k e _⟩

/-- The event runs R601 on its record, has no response, and leaves the rest as it was. -/
theorem exists_exec_evDiIn (there : s.filter k = some d) (level : Bool) :
    ∃ t, exec (.evDiIn k level) s = .next t ∧ t.filter k = some (debounceEvent level s.now d) ∧ t.resp = none ∧
      OnlyDebounce k s t :=
  ⟨_, exec_evDiIn there level, setFilter_filter_same _ there, rfl, onlyDebounce_setFilter s k _ none⟩

/-- The expiry runs R603 on its record, has no response, and leaves the rest as it was. -/
theorem exists_exec_sysExpire {level : Bool} (there : s.filter k = some d) (due : d.pend = .armed level s.now) (sample : Bool) :
    ∃ t, exec (.sysExpire k sample) s = .next t ∧ t.filter k = some (debounceExpire level sample d) ∧ t.resp = none ∧
      OnlyDebounce k s t :=
  ⟨_, exec_sysExpire there due sample, setFilter_filter_same _ there, rfl, onlyDebounce_setFilter s k _ none⟩

end

/-! ### The statements -/

/-- Settles O19: each descriptor is its row at INST k, and each meaning is an answer with the field, widened to 64 bits. -/
theorem debounceRegisterReads : Obligations.DebounceRegisterReads := by
  intro k s d there
  refine ⟨⟨hrd_eq_rowAt k.isLt, ?_⟩, ⟨hrd_eq_rowAt k.isLt, ?_⟩, ⟨hrd_eq_rowAt k.isLt, ?_⟩, ⟨hrd_eq_rowAt k.isLt, ?_⟩,
    ⟨hrd_eq_rowAt k.isLt, ?_⟩⟩
  · rw [exec_rdDiDeb there, answer_eq_next]
    cases d.settled <;> rfl
  · rw [exec_rdDiOnMs there, answer_eq_next, zext64_eq_ofNat]
  · rw [exec_rdDiOffMs there, answer_eq_next, zext64_eq_ofNat]
  · rw [exec_rdDiOnCnt there, answer_eq_next]
  · rw [exec_rdDiOffCnt there, answer_eq_next]

/-- Settles O26: WDATA that does not fit fails, and any other is stored in a record that R604 resets. -/
theorem holdTimeWrites : Obligations.HoldTimeWrites := by
  intro k s d there
  refine ⟨hwr_eq_rowAt k.isLt, hwr_eq_rowAt k.isLt, fun large => ?_, fun fits => ?_⟩
  · have hlarge := Nat.not_lt.mpr large
    exact ⟨exec_wrDiOnMs_malformed there hlarge, exec_wrDiOffMs_malformed there hlarge⟩
  · rw [exec_wrDiOnMs there fits, exec_wrDiOffMs there fits]
    exact ⟨exists_answer_setFilter there _, exists_answer_setFilter there _⟩

/-- A hold time in µs, without wrap (R600). -/
theorem toNat_holdUs (d : Debounce) (level : Bool) :
    (holdUs d level).toNat = (if level then d.holdOnMs else d.holdOffMs).toNat * 1000 := by
  unfold holdUs
  generalize (if level then d.holdOnMs else d.holdOffMs) = ms
  have := ms.isLt
  have hk : (1000 : Word).toNat = 1000 := rfl
  rw [zext64, BitVec.toNat_mul, BitVec.toNat_setWidth, hk, Nat.mod_eq_of_lt (a := ms.toNat) (by omega)]
  omega

/-- Settles O44: the two cases of R601 exclude each other, and a deadline under the premise of R814 does not wrap. -/
theorem debounceEventArmsTheTimer : Obligations.DebounceEventArmsTheTimer := by
  intro k level s d there hnow
  obtain ⟨t, hnext, hrecord, hresp, frame⟩ := exists_exec_evDiIn there level
  refine ⟨t, _, hnext, hresp, frame, hrecord, ?_⟩
  rcases debounceEvent_cases level s.now d with ⟨armed, he⟩ | ⟨notArmed, he⟩ <;> rw [he]
  · obtain ⟨due, hdue⟩ := armed
    exact ⟨fun _ => rfl, fun notArmed => absurd hdue (notArmed due)⟩
  · refine ⟨fun ⟨due, hdue⟩ => absurd hdue (notArmed due), fun _ => ⟨_, rfl, ?_⟩⟩
    have hfits : timeFits s.now = true := decide_eq_true (by omega)
    rw [toNat_deadline hfits, toNat_holdUs]

/-- Settles O45: the branches of the statement are the cases of R603. -/
theorem expiryCommitsTheArmedLevel : Obligations.ExpiryCommitsTheArmedLevel := by
  intro k sample level s d there due
  obtain ⟨t, hnext, hrecord, hresp, frame⟩ := exists_exec_sysExpire there due sample
  refine ⟨t, hnext, hresp, frame, hrecord.trans (congrArg some ?_)⟩
  rcases debounceExpire_cases level sample d with ⟨hno, he⟩ | ⟨rfl, rfl, hset, he⟩ | ⟨rfl, rfl, hset, he⟩ <;> rw [he]
  · rw [if_neg (by rintro ⟨rfl, rfl, hne⟩; exact hno.elim (absurd rfl) hne),
      if_neg (by rintro ⟨rfl, rfl, hne⟩; exact hno.elim (absurd rfl) hne)]
  · rw [if_pos ⟨rfl, rfl, hset⟩]
  · rw [if_neg fun ⟨_, h, _⟩ => Bool.noConfusion h, if_pos ⟨rfl, rfl, hset⟩]

/-- A host access completed in its own step with OK or INVAL. -/
def CompletesUnblocked (o : Host.Outcome State Fault Refusal) : Prop :=
  ∃ t a, o = .next t ∧ t.resp = some a ∧ (a.status = .ok ∨ a.status = .inval)

theorem answer_completesUnblocked (s : State) (v : Word) : CompletesUnblocked (s.answer v) := ⟨_, _, rfl, rfl, .inl rfl⟩

theorem fail_inval_completesUnblocked (s : State) : CompletesUnblocked (s.fail .inval) := ⟨_, _, rfl, rfl, .inr rfl⟩

theorem filterRead_completesUnblocked {s : State} {k : DiIdx} {d : Debounce} (there : s.filter k = some d) (f : Debounce → Word) :
    CompletesUnblocked (withFilter s k fun d => s.answer (f d)) := by
  rw [withFilter_of_filter there]
  exact answer_completesUnblocked s (f d)

/-- Settles O46: a read of a filter answers, a write of a hold time answers or fails with INVAL, and no other operation is a host access to
a filter. -/
theorem debounceAccessesNeverBlock : Obligations.DebounceAccessesNeverBlock := by
  intro k i s d there htarget hhost
  cases i with
  | rdDiDeb m | rdDiOnMs m | rdDiOffMs m | rdDiOnCnt m | rdDiOffCnt m =>
    cases htarget
    exact filterRead_completesUnblocked there _
  | wrDiOnMs m =>
    cases htarget
    by_cases fits : s.wdata.toNat < 2 ^ 32
    · rw [exec_wrDiOnMs there fits]; exact answer_completesUnblocked _ 0
    · rw [exec_wrDiOnMs_malformed there fits]; exact fail_inval_completesUnblocked s
  | wrDiOffMs m =>
    cases htarget
    by_cases fits : s.wdata.toNat < 2 ^ 32
    · rw [exec_wrDiOffMs there fits]; exact answer_completesUnblocked _ 0
    · rw [exec_wrDiOffMs_malformed there fits]; exact fail_inval_completesUnblocked s
  | evDiIn m level => simp [isHostOp, encode, evt] at hhost
  | sysExpire m sample => simp [isHostOp, encode] at hhost
  | _ => cases htarget

end Sys2Proof.Machine
end

section
/-! What an operation makes of one filter (43_debounce.md R601 to R604; 70_reset_and_hazards.md R900). `exec_effect` says what can become
of a record; `exec_filterEffect` says by which operation. -/

namespace Sys2Proof.Machine

/-- What an operation makes of filter k. -/
inductive FilterEffect (k : DiIdx) (s : State) : Instr → Option Debounce → Prop where
  | same (i : Instr) : FilterEffect k s i (s.filter k)
  | event (level : Bool) (d : Debounce) (there : s.filter k = some d) :
      FilterEffect k s (.evDiIn k level) (some (debounceEvent level s.now d))
  | expire (level sample : Bool) (d : Debounce) (there : s.filter k = some d) (pending : d.pend = .armed level s.now) :
      FilterEffect k s (.sysExpire k sample) (some (debounceExpire level sample d))
  | onMs (d : Debounce) : FilterEffect k s (.wrDiOnMs k) (some (debounceReconfig d))
  | offMs (d : Debounce) : FilterEffect k s (.wrDiOffMs k) (some (debounceReconfig d))
  | reset : FilterEffect k s .sysReset ((State.resetFor s.cfg).filter k)

section
variable {k m : DiIdx} {i : Instr} {s t : State}

/-! ### An operation that changes no filter -/

theorem filterEffect_of_deb_eq (h : t.deb = s.deb) : FilterEffect k s i (t.filter k) := by
  have hsame : t.filter k = s.filter k := congrArg (·[k.val]?) h
  rw [hsame]
  exact .same i

theorem filterEffect_of_answer {v : Word} (h : s.answer v = .next t) : FilterEffect k s i (t.filter k) := by
  cases h
  exact .same i

theorem filterEffect_of_fail {st : Status} (h : s.fail st = .next t) : FilterEffect k s i (t.filter k) := by
  cases h
  exact .same i

theorem filterEffect_of_filterRead {f : Debounce → Word} (h : (withFilter s m fun d => s.answer (f d)) = .next t) :
    FilterEffect k s i (t.filter k) := by
  rcases withFilter_next h with ⟨-, rfl⟩ | ⟨d, -, h⟩
  · exact .same i
  · exact filterEffect_of_answer h

theorem rdWDataTs_filterEffect {n : WIdx} (h : execRdWDataTs n s = .next t) : FilterEffect k s i (t.filter k) := by
  unfold execRdWDataTs at h
  split at h
  · exact filterEffect_of_fail h
  · split at h
    · exact filterEffect_of_fail h
    · cases h; exact filterEffect_of_deb_eq (setW_deb s n _)

theorem rdCdDataTs_filterEffect {j : CdIdx} (h : execRdCdDataTs j s = .next t) : FilterEffect k s i (t.filter k) := by
  unfold execRdCdDataTs at h
  split at h
  · exact filterEffect_of_fail h
  · split at h
    · exact filterEffect_of_fail h
    · cases h; exact filterEffect_of_deb_eq (setCd_deb s j _)

theorem wrWEnabled_filterEffect {n : WIdx} (h : execWrWEnabled n s = .next t) : FilterEffect k s i (t.filter k) := by
  unfold execWrWEnabled at h
  split at h
  · unfold State.enableW at h
    split at h
    · exact filterEffect_of_answer h
    · split at h
      · exact filterEffect_of_fail h
      · cases h; exact filterEffect_of_deb_eq (setW_deb _ n _)
  · unfold State.disableW at h
    split at h
    · cases h; exact filterEffect_of_deb_eq (setW_deb _ n _)
    · exact filterEffect_of_answer h
  · exact filterEffect_of_fail h

theorem wrCdEnabled_filterEffect {j : CdIdx} (h : execWrCdEnabled j s = .next t) : FilterEffect k s i (t.filter k) := by
  unfold execWrCdEnabled at h
  split at h
  · unfold State.enableCd at h
    split at h
    · exact filterEffect_of_answer h
    · split at h
      · exact filterEffect_of_fail h
      · cases h; exact filterEffect_of_deb_eq (setCd_deb _ j _)
  · unfold State.disableCd at h
    split at h
    · cases h; exact filterEffect_of_deb_eq (setCd_deb _ j _)
    · exact filterEffect_of_answer h
  · exact filterEffect_of_fail h

/-! ### An operation of one filter -/

/-- A record stored for filter m is one for filter k only where m is k. -/
theorem filterEffect_of_setFilter {d e : Debounce} (there : s.filter m = some d) (own : m = k → FilterEffect k s i (some e)) :
    FilterEffect k s i ((s.setFilter m e).filter k) := by
  by_cases hm : m = k
  · subst hm
    rw [setFilter_filter_same e there]
    exact own rfl
  · rw [setFilter_filter_ne s e (Ne.symm hm)]
    exact .same i

theorem wrDiOnMs_filterEffect (h : execWrDiOnMs m s = .next t) : FilterEffect k s (.wrDiOnMs m) (t.filter k) := by
  rcases withFilter_next h with ⟨-, rfl⟩ | ⟨d, there, h⟩
  · exact .same _
  · split at h
    · cases h; exact filterEffect_of_setFilter there (by rintro rfl; exact .onMs _)
    · exact filterEffect_of_fail h

theorem wrDiOffMs_filterEffect (h : execWrDiOffMs m s = .next t) : FilterEffect k s (.wrDiOffMs m) (t.filter k) := by
  rcases withFilter_next h with ⟨-, rfl⟩ | ⟨d, there, h⟩
  · exact .same _
  · split at h
    · cases h; exact filterEffect_of_setFilter there (by rintro rfl; exact .offMs _)
    · exact filterEffect_of_fail h

theorem evDiIn_filterEffect {level : Bool} (h : execEvDiIn m level s = .next t) :
    FilterEffect k s (.evDiIn m level) (t.filter k) := by
  obtain ⟨d, there, h⟩ := withEventFilter_next h
  cases h
  exact filterEffect_of_setFilter there (by rintro rfl; exact .event level d there)

theorem sysExpire_filterEffect {sample : Bool} (h : execSysExpire m sample s = .next t) :
    FilterEffect k s (.sysExpire m sample) (t.filter k) := by
  obtain ⟨d, there, h⟩ := withEventFilter_next h
  split at h
  · cases h
  · next level deadline pending =>
    split at h
    · next due =>
      cases h
      exact filterEffect_of_setFilter there (by rintro rfl; exact .expire level sample d there (due ▸ pending))
    · cases h

/-! ### Every operation, and every step -/

theorem exec_filterEffect (h : exec i s = .next t) (k : DiIdx) : FilterEffect k s i (t.filter k) := by
  cases i with
  | rdWEnabled _ | rdWDataBits _ | rdWDataWord _ | rdWItvlMin _ | rdWItvlMax _ | rdWWidthMin _ | rdWWidthMax _
  | rdCdEnabled _ | rdCdDataBits _ | rdCdDataWord _ | rdCdPeriodMin _ | rdCdPeriodMax _ => exact filterEffect_of_answer h
  | wrWItvlMin n | wrWItvlMax n | wrWWidthMin n | wrWWidthMax n | rdWNoise n | evWD0 n _ | evWD1 n _ =>
    cases h; exact filterEffect_of_deb_eq (setW_deb s n _)
  | wrCdPeriodMin j | wrCdPeriodMax j | rdCdNoise j | evCdClk j _ =>
    cases h; exact filterEffect_of_deb_eq (setCd_deb s j _)
  | wrWEnabled n => exact wrWEnabled_filterEffect h
  | rdWDataTs n => exact rdWDataTs_filterEffect h
  | wrCdEnabled j => exact wrCdEnabled_filterEffect h
  | rdCdDataTs j => exact rdCdDataTs_filterEffect h
  | rdDiDeb m | rdDiOnMs m | rdDiOffMs m | rdDiOnCnt m | rdDiOffCnt m => exact filterEffect_of_filterRead h
  | wrDiOnMs m => exact wrDiOnMs_filterEffect h
  | wrDiOffMs m => exact wrDiOffMs_filterEffect h
  | evDiIn m level => exact evDiIn_filterEffect h
  | sysExpire m sample => exact sysExpire_filterEffect h
  | sysReset => cases h; exact .reset

theorem nextOp_eq_some {x : StepInput} {rest : List StepInput} (hinputs : s.inputs = x :: rest) (hdecode : s.decodeStep x = .ok i) :
    s.nextOp = some i := by
  simp only [State.nextOp, hinputs, hdecode]

/-- A step leaves filter k as it was, or runs an operation that has one of the effects on it. -/
theorem step_filterEffect (h : step s = .next t) (k : DiIdx) :
    t.filter k = s.filter k ∨
      ∃ x rest i, s.nextOp = some i ∧ FilterEffect k (s.latch x rest) i (t.filter k) := by
  rcases step_next h with ⟨-, rfl⟩ | ⟨x, rest, hinputs, -, ⟨i, hdecode, hexec⟩ | ⟨-, rfl⟩⟩
  · exact .inl rfl
  · exact .inr ⟨x, rest, i, nextOp_eq_some hinputs hdecode, exec_filterEffect hexec k⟩
  · exact .inl rfl

end

/-- A filter right after a block reset is at its reset column. -/
theorem resetFor_filter_eq_some {c : Config} {k : DiIdx} {d : Debounce} (h : (State.resetFor c).filter k = some d) :
    d = .reset c := List.eq_of_mem_replicate (mem_of_filter h)

end Sys2Proof.Machine
end

section
/-! Counting (43_debounce.md R621) and glitch rejection (R620): what each effect on a filter does to its counts, and to a level that is
neither awaited nor settled. -/

namespace Sys2Proof.Machine

/-! ### Counts -/

theorem debounceEvent_kept (level : Bool) (now : Micros) (d : Debounce) :
    (debounceEvent level now d).settled = d.settled ∧ (debounceEvent level now d).onCnt = d.onCnt ∧
      (debounceEvent level now d).offCnt = d.offCnt := by
  rcases debounceEvent_cases level now d with ⟨-, he⟩ | ⟨-, he⟩ <;> rw [he] <;> exact ⟨rfl, rfl, rfl⟩

/-- An expiry counts at most one transition (R603). -/
theorem debounceExpire_counts (level sample : Bool) (d : Debounce) :
    ((debounceExpire level sample d).onCnt = d.onCnt ∧ (debounceExpire level sample d).offCnt = d.offCnt) ∨
    ((debounceExpire level sample d).onCnt = d.onCnt + 1 ∧ (debounceExpire level sample d).offCnt = d.offCnt) ∨
    ((debounceExpire level sample d).onCnt = d.onCnt ∧ (debounceExpire level sample d).offCnt = d.offCnt + 1) := by
  rcases debounceExpire_cases level sample d with ⟨-, he⟩ | ⟨-, -, -, he⟩ | ⟨-, -, -, he⟩ <;> rw [he]
  · exact .inl ⟨rfl, rfl⟩
  · exact .inr (.inl ⟨rfl, rfl⟩)
  · exact .inr (.inr ⟨rfl, rfl⟩)

theorem FilterEffect.counts {k : DiIdx} {s : State} {i : Instr} {o : Option Debounce} {d e : Debounce}
    (effect : FilterEffect k s i o) (before : s.filter k = some d) (after : o = some e) :
    (e.onCnt = d.onCnt ∧ e.offCnt = d.offCnt) ∨ (reconfigures k i ∧ e.onCnt = 0 ∧ e.offCnt = 0) ∨
    (∃ r, i = .sysExpire k r ∧
      ((e.onCnt = d.onCnt + 1 ∧ e.offCnt = d.offCnt) ∨ (e.onCnt = d.onCnt ∧ e.offCnt = d.offCnt + 1))) := by
  cases effect with
  | same i =>
    cases before.symm.trans after
    exact .inl ⟨rfl, rfl⟩
  | event level d' there =>
    cases there.symm.trans before
    cases after
    obtain ⟨-, hon, hoff⟩ := debounceEvent_kept level s.now d
    exact .inl ⟨hon, hoff⟩
  | expire level sample d' there _ =>
    cases there.symm.trans before
    cases after
    exact (debounceExpire_counts level sample d).imp_right fun counted => .inr ⟨sample, rfl, counted⟩
  | onMs d' =>
    cases after
    exact .inr (.inl ⟨.inl rfl, rfl, rfl⟩)
  | offMs d' =>
    cases after
    exact .inr (.inl ⟨.inr (.inl rfl), rfl, rfl⟩)
  | reset =>
    obtain rfl := resetFor_filter_eq_some after
    exact .inr (.inl ⟨.inr (.inr rfl), rfl, rfl⟩)

/-- Settles O48: the operation that the step runs has one of the effects on filter k. -/
theorem atMostOneCountPerExpiry : Obligations.AtMostOneCountPerExpiry := by
  intro k s t d e hstep before after
  rcases step_filterEffect hstep k with hsame | ⟨x, rest, i, hop, effect⟩
  · cases before.symm.trans (hsame.symm.trans after)
    exact .inl ⟨rfl, rfl⟩
  · rcases effect.counts (s := s.latch x rest) before after with hkept | ⟨hreconf, hzero⟩ | ⟨r, rfl, hcounted⟩
    · exact .inl hkept
    · exact .inr (.inl ⟨i, hop, hreconf, hzero⟩)
    · exact .inr (.inr ⟨r, hop, hcounted⟩)

/-! ### A level that is neither awaited nor settled -/

/-- The timer is not armed for level L, and L is not settled. -/
def Debounce.FreeOf (L : Bool) (d : Debounce) : Prop := (∀ due, d.pend ≠ .armed L due) ∧ d.settled ≠ Settled.ofLevel L

section
variable {L : Bool} {d : Debounce}

/-- After an event the timer is armed for the event's level. -/
theorem debounceEvent_pend (level : Bool) (now : Micros) (d : Debounce) :
    ∃ due, (debounceEvent level now d).pend = .armed level due := by
  rcases debounceEvent_cases level now d with ⟨armed, he⟩ | ⟨-, he⟩ <;> rw [he]
  · exact armed
  · exact ⟨_, rfl⟩

theorem debounceEvent_pend_ne {level : Bool} (now : Micros) (d : Debounce) (hlevel : level ≠ L) (due : Micros) :
    (debounceEvent level now d).pend ≠ .armed L due := by
  obtain ⟨due', hpend⟩ := debounceEvent_pend level now d
  rw [hpend]
  exact fun heq => hlevel (Pend.armed.inj heq).1

theorem Debounce.FreeOf.event {level : Bool} (h : d.FreeOf L) (now : Micros) (hlevel : level ≠ L) :
    (debounceEvent level now d).FreeOf L := by
  obtain ⟨-, hsettled⟩ := h
  obtain ⟨hkept, -, -⟩ := debounceEvent_kept level now d
  exact ⟨debounceEvent_pend_ne now d hlevel, hkept ▸ hsettled⟩

theorem Settled.ofLevel_ne {level : Bool} (h : level ≠ L) : Settled.ofLevel level ≠ Settled.ofLevel L := by
  cases level <;> cases L <;> simp [Settled.ofLevel] at h ⊢

/-- An expiry settles no level but the one it was armed for. -/
theorem Debounce.FreeOf.expire {level : Bool} {now : Micros} (h : d.FreeOf L) (pending : d.pend = .armed level now) (sample : Bool) :
    (debounceExpire level sample d).FreeOf L := by
  obtain ⟨hpend, hsettled⟩ := h
  have hlevel : level ≠ L := by rintro rfl; exact hpend now pending
  refine ⟨by simp [debounceExpire_pend], ?_⟩
  rcases debounceExpire_cases level sample d with ⟨-, he⟩ | ⟨-, rfl, -, he⟩ | ⟨-, rfl, -, he⟩ <;> rw [he]
  · exact hsettled
  · exact Settled.ofLevel_ne hlevel
  · exact Settled.ofLevel_ne hlevel

/-- A filter with an idle timer and no settled value is free of both levels. -/
theorem Debounce.freeOf_of_undef (hpend : d.pend = .idle) (hsettled : d.settled = .undef) : d.FreeOf L :=
  ⟨by simp [hpend], by cases L <;> simp [hsettled, Settled.ofLevel]⟩

end

/-- Filter k, where it exists, is free of L: it may cease to exist at a block reset whose N_DI is not above k. -/
def State.FilterFreeOf (k : DiIdx) (L : Bool) (s : State) : Prop := ∀ d, s.filter k = some d → d.FreeOf L

section
variable {k : DiIdx} {L : Bool} {s t : State}

theorem FilterEffect.freeOf {i : Instr} {o : Option Debounce} (effect : FilterEffect k s i o) (hop : i ≠ .evDiIn k L)
    (h : s.FilterFreeOf k L) : ∀ e, o = some e → e.FreeOf L := by
  intro e ho
  cases effect with
  | same i => exact h e ho
  | event level d there =>
    cases ho
    exact (h d there).event s.now fun hlevel => hop (hlevel ▸ rfl)
  | expire level sample d there pending =>
    cases ho
    exact (h d there).expire pending sample
  | onMs d | offMs d =>
    cases ho
    exact Debounce.freeOf_of_undef rfl rfl
  | reset =>
    obtain rfl := resetFor_filter_eq_some ho
    exact Debounce.freeOf_of_undef rfl rfl

theorem step_filterFreeOf (hstep : step s = .next t) (hop : s.nextOp ≠ some (.evDiIn k L)) (h : s.FilterFreeOf k L) :
    t.FilterFreeOf k L := by
  intro e after
  rcases step_filterEffect hstep k with hsame | ⟨x, rest, i, hnext, effect⟩
  · exact h e (hsame.symm.trans after)
  · exact effect.freeOf (fun hi => hop (hi ▸ hnext)) h e after

theorem RunWith.filterFreeOf (run : RunWith (fun s _ => s.nextOp ≠ some (.evDiIn k L)) s t) (h : s.FilterFreeOf k L) :
    t.FilterFreeOf k L := by
  induction run with
  | refl s => exact h
  | next hstep hop _ ih => exact ih (step_filterFreeOf hstep hop h)

end

/-- Settles O47: an event of the other level re-arms the timer and settles nothing, and a run without an event of level L keeps the
filter free of L. -/
theorem glitchIsNeverSettled : Obligations.GlitchIsNeverSettled := by
  refine ⟨fun k L s d there _ => ?_, fun k L s t d e run before after hpend hsettled => ?_⟩
  · obtain ⟨t, hnext, hrecord, -, -⟩ := exists_exec_evDiIn there (!L)
    exact ⟨t, _, hnext, hrecord, debounceEvent_pend_ne s.now d (Bool.not_ne_self L), debounceEvent_kept (!L) s.now d⟩
  · refine run.filterFreeOf (fun d' there => ?_) e after
    cases there.symm.trans before
    exact ⟨hpend, hsettled⟩

end Sys2Proof.Machine
end

section
/-! The steps of a filter with a timer: which are admitted (43_debounce.md R602), and the descriptors that touch a filter. -/

namespace Sys2Proof.Machine

/-! ### Descriptors -/

theorem touchedFilter_evDiIn (k : DiIdx) (level : Bool) : touchedFilter (encode (.evDiIn k level)) = some k := by
  refine touchedFilter_eq_some_iff.mpr ⟨?_, ?_, ?_, .inr ⟨?_, ?_⟩⟩
  case refine_5 => cases level <;> simp [encode, evt]
  all_goals simp [encode, evt]

theorem touchedFilter_hrd {k : DiIdx} {reg : BitVec 4} (h : reg.toNat ≤ 4) : touchedFilter (hrd 2 k reg) = some k :=
  touchedFilter_eq_some_iff.mpr (by simp [hrd, h])

theorem touchedFilter_hwr {k : DiIdx} {reg : BitVec 4} (h : reg.toNat ≤ 4) : touchedFilter (hwr 2 k reg) = some k :=
  touchedFilter_eq_some_iff.mpr (by simp [hwr, h])

theorem touchedFilter_sysExpire (k : DiIdx) (sample : Bool) : touchedFilter (encode (.sysExpire k sample)) = none := by
  simp [encode, touchedFilter]

section
variable {s : State} {x : StepInput} {rest : List StepInput} {k : DiIdx} {d : Debounce}

/-- An admitted step whose descriptor is that of an operation that exists runs the operation. -/
theorem step_of_encode (i : Instr) (hinputs : s.inputs = x :: rest) (admitted : s.refusalByTime x = none)
    (hwf : i.wf s.cfg.nDi = true) (hdesc : x.desc = encode i) : step s = exec i (s.latch x rest) := by
  refine step_of_decodeStep_ok hinputs admitted ?_
  rw [State.decodeStep, hdesc]
  exact encodeThenDecodeIsIdentity s.cfg.nDi i hwf

/-! ### Admission -/

theorem touchesDue_eq_timerDue (touched : touchedFilter x.desc = some k) (there : s.filter k = some d) :
    s.touchesDue x = timerDue x.now d := by
  simp only [State.touchesDue, touched, there]

theorem touchesDue_of_untouched (untouched : touchedFilter x.desc = none) : s.touchesDue x = false := by
  simp only [State.touchesDue, untouched]

theorem timerDue_of_idle {now : Micros} (hpend : d.pend = .idle) : timerDue now d = false := by
  simp only [timerDue, hpend]

theorem timerDue_of_armed {now : Micros} {level : Bool} {deadline : Micros} (hpend : d.pend = .armed level deadline) :
    timerDue now d = decide (deadline ≤ now) := by
  simp only [timerDue, hpend]

/-- A step that is not admitted by its time is refused. -/
theorem exists_refused_of_time (hinputs : s.inputs = x :: rest) (h : s.refusalByTime x ≠ none) : ∃ r, step s = .refused r := by
  obtain ⟨r, hr⟩ := Option.ne_none_iff_exists'.mp h
  exact ⟨r, by simp only [step, hinputs, hr]⟩

/-- R602 (b). -/
theorem exists_refused_of_past_deadline {level : Bool} {deadline : Micros} (hinputs : s.inputs = x :: rest)
    (there : s.filter k = some d) (hpend : d.pend = .armed level deadline) (past : deadline < x.now) :
    ∃ r, step s = .refused r := by
  refine exists_refused_of_time hinputs fun admitted => ?_
  obtain ⟨-, -, -, hdeadlines, -⟩ := (refusalByTime_eq_none_iff s x).mp admitted
  exact BitVec.not_lt.mpr (not_pastDeadline (hdeadlines d (mem_of_filter there)) hpend) past

/-- R602 (c). -/
theorem exists_refused_of_touched_due {level : Bool} {deadline : Micros} (hinputs : s.inputs = x :: rest)
    (there : s.filter k = some d) (hpend : d.pend = .armed level deadline) (touched : touchedFilter x.desc = some k)
    (due : deadline ≤ x.now) : ∃ r, step s = .refused r := by
  refine exists_refused_of_time hinputs fun admitted => ?_
  obtain ⟨-, -, -, -, notDue⟩ := (refusalByTime_eq_none_iff s x).mp admitted
  rw [touchesDue_eq_timerDue touched there, timerDue_of_armed hpend] at notDue
  exact of_decide_eq_false notDue due

/-- R602 (d). -/
theorem exists_refused_of_expire_not_due {sample : Bool} (hinputs : s.inputs = x :: rest) (there : s.filter k = some d)
    (hk : k.val < s.cfg.nDi) (hdesc : x.desc = encode (.sysExpire k sample)) (notDue : ∀ level, d.pend ≠ .armed level x.now) :
    ∃ r, step s = .refused r := by
  by_cases admitted : s.refusalByTime x = none
  · exact ⟨.expireNotDue, (step_of_encode (.sysExpire k sample) hinputs admitted (decide_eq_true hk) hdesc).trans
      (exec_sysExpire_of_not_due (s := s.latch x rest) there notDue sample)⟩
  · exact exists_refused_of_time hinputs admitted

end

/-- Settles O11, by the parts of R602; part (a) is a step that is admitted by its time and whose meaning finds its timer due. -/
theorem expiryRunsAtItsDeadline : Obligations.ExpiryRunsAtItsDeadline := by
  intro s x rest k d hinputs there hk
  refine ⟨fun level deadline hpend => ⟨fun r hdesc hnow hfits hfresh hle hothers => ?_, fun past => ?_,
    fun l hdesc due => ?_, fun reg hreg hdesc due => ?_, fun r hdesc off => ?_⟩, fun r hidle hdesc => ?_⟩
  · have admitted : s.refusalByTime x = none :=
      (refusalByTime_eq_none_iff s x).mpr ⟨decide_eq_true (by omega), hfresh, hle,
        fun e he => pastDeadline_eq_false (hothers e he), touchesDue_of_untouched (hdesc ▸ touchedFilter_sysExpire k r)⟩
    exact ⟨_, (step_of_encode (.sysExpire k r) hinputs admitted (decide_eq_true hk) hdesc).trans
      (exec_sysExpire (s := s.latch x rest) there (hnow ▸ hpend) r)⟩
  · exact exists_refused_of_past_deadline hinputs there hpend past
  · exact exists_refused_of_touched_due hinputs there hpend (hdesc ▸ touchedFilter_evDiIn k l) due
  · have touched : touchedFilter x.desc = some k := by
      rcases hdesc with hdesc | hdesc <;> rw [hdesc]
      · exact touchedFilter_hrd hreg
      · exact touchedFilter_hwr hreg
    exact exists_refused_of_touched_due hinputs there hpend touched due
  · refine exists_refused_of_expire_not_due hinputs there hk hdesc fun M hM => off ?_
    exact (Pend.armed.inj (hM.symm.trans hpend)).2
  · exact exists_refused_of_expire_not_due hinputs there hk hdesc (by simp [hidle])

end Sys2Proof.Machine
end

section
/-! The scenario law of a filter (43_debounce.md R623): the event that arms the timer, the notifications of the armed level that change
nothing, and the expiry that settles the level. -/

namespace Sys2Proof.Machine

/-! ### The steps on the record -/

section
variable {s : State} {k : DiIdx} {d : Debounce} {level : Bool} {due : Micros}

theorem debounceEvent_of_armed (now : Micros) (hpend : d.pend = .armed level due) : debounceEvent level now d = d :=
  if_pos (by simp [armedFor, hpend])

theorem debounceEvent_of_idle (now : Micros) (hpend : d.pend = .idle) :
    debounceEvent level now d = { d with pend := .armed level (now + holdUs d level) } :=
  if_neg (by simp [armedFor, hpend])

theorem debounceExpire_on (h : d.settled ≠ .on) :
    debounceExpire true true d = { d with pend := .idle, settled := .on, onCnt := d.onCnt + 1 } := by
  rcases debounceExpire_cases true true d with ⟨hsample | hsettled, -⟩ | ⟨-, -, -, he⟩ | ⟨-, hlevel, -, -⟩
  · exact absurd rfl hsample
  · exact absurd hsettled h
  · exact he
  · cases hlevel

theorem setFilter_self (there : s.filter k = some d) : s.setFilter k d = s := by
  obtain ⟨hk, hd⟩ := List.getElem?_eq_some_iff.mp there
  have hdeb : s.deb.set k.val d = s.deb := by rw [← hd, List.set_getElem_self]
  rw [State.setFilter, hdeb]

/-- A notification of the level that is awaited has no effect (R617). -/
theorem exec_evDiIn_of_armed (there : s.filter k = some d) (hpend : d.pend = .armed level due) :
    exec (.evDiIn k level) s = .next s.silent := by
  rw [exec_evDiIn there, debounceEvent_of_armed s.now hpend, setFilter_self there]

end

/-! ### The steps to come -/

/-- Notifications of level 1 on filter k, then the expiry that samples 1. -/
def notifyThenExpire (k : DiIdx) (us : List Micros) (due : Micros) : List StepInput :=
  us.map (fun u => eventAt (.evDiIn k true) u) ++ [eventAt (.sysExpire k true) due]

theorem map_now_notifyThenExpire (k : DiIdx) (us : List Micros) (due : Micros) :
    (notifyThenExpire k us due).map StepInput.now = us ++ [due] := by
  simp [notifyThenExpire, eventAt, Function.comp_def]

theorem now_le_of_mem_notifyThenExpire {k : DiIdx} {us : List Micros} {due : Micros} (early : ∀ u ∈ us, u < due) {x : StepInput}
    (hx : x ∈ notifyThenExpire k us due) : x.now ≤ due := by
  have hnow : x.now ∈ us ++ [due] := map_now_notifyThenExpire k us due ▸ List.mem_map_of_mem hx
  rcases List.mem_append.mp hnow with hu | hlast
  · exact BitVec.le_of_lt (early x.now hu)
  · rw [List.mem_singleton.mp hlast]; exact BitVec.le_refl due

/-- Filter k, otherwise as `d`, awaits level 1 until `due`, and notifications of that level before `due` and then the expiry are the
steps to come. -/
structure State.AwaitsOn (s : State) (k : DiIdx) (d : Debounce) (due : Micros) (us : List Micros) : Prop where
  there : s.filter k = some { d with pend := .armed true due }
  inRange : k.val < s.cfg.nDi
  ahead : s.EventsAhead (notifyThenExpire k us due)
  early : ∀ u ∈ us, u < due

section
variable {s : State} {x : StepInput} {rest : List StepInput} {k : DiIdx} {d : Debounce} {due : Micros}

/-- A step at an admitted time that passes no deadline and touches no filter with a timer due. -/
theorem refusalByTime_eq_none_of_noDeadlinePasses (hinputs : s.inputs = x :: rest) (hfits : timeFits x.now = true)
    (hfresh : s.fresh = true → x.now = s.cfg.tReset) (hle : s.fresh = false → s.now ≤ x.now) (h : s.NoDeadlinePasses)
    (notDue : s.touchesDue x = false) : s.refusalByTime x = none :=
  (refusalByTime_eq_none_iff s x).mpr ⟨hfits, hfresh, hle,
    fun d hd => pastDeadline_eq_false fun L deadline hpend => h d hd L deadline hpend x (by simp [hinputs]), notDue⟩

theorem State.AwaitsOn.notify {u : Micros} {us : List Micros} (h : s.AwaitsOn k d due (u :: us)) :
    ∃ t, step s = .next t ∧ t.AwaitsOn k d due us := by
  obtain ⟨there, inRange, ahead, early⟩ := h
  obtain ⟨hu, hus⟩ := List.forall_mem_cons.mp early
  obtain ⟨hle, hfits, -⟩ := ahead.times
  have notDue : s.touchesDue (eventAt (.evDiIn k true) u) = false := by
    rw [touchesDue_eq_timerDue (x := eventAt (.evDiIn k true) u) (touchedFilter_evDiIn k true) there, timerDue_of_armed rfl]
    exact decide_eq_false (BitVec.not_le.mpr hu)
  have admitted := refusalByTime_eq_none_of_noDeadlinePasses ahead.inputs hfits (by simp [ahead.notFresh]) (fun _ => hle)
    ahead.deadlines notDue
  have hstep := step_of_encode (.evDiIn k true) ahead.inputs admitted (decide_eq_true inRange) rfl
  rw [exec_evDiIn_of_armed (s := s.latch _ _) there rfl] at hstep
  exact ⟨_, hstep, there, inRange, ahead.tail rfl rfl rfl rfl, hus⟩

theorem State.AwaitsOn.expire (h : s.AwaitsOn k d due []) (unsettled : d.settled ≠ .on) :
    ∃ t, step s = .next t ∧ t.filter k = some { d with settled := .on, onCnt := d.onCnt + 1, pend := .idle } := by
  obtain ⟨there, inRange, ahead, -⟩ := h
  have admitted := ahead.refusalByTime_eq_none (touchedFilter_sysExpire k true)
  have hstep := step_of_encode (.sysExpire k true) ahead.inputs admitted (decide_eq_true inRange) rfl
  obtain ⟨t, hnext, hrecord, -, -⟩ := exists_exec_sysExpire (s := s.latch (eventAt (.sysExpire k true) due) []) there rfl true
  refine ⟨t, hstep.trans hnext, hrecord.trans ?_⟩
  rw [debounceExpire_on (d := { d with pend := .armed true due }) unsettled]

theorem State.AwaitsOn.run (us : List Micros) {s : State} (h : s.AwaitsOn k d due us) (unsettled : d.settled ≠ .on) :
    ∃ t, Host.Core.run Sys2Proof.core (us.length + 1) s = .next t ∧
      t.filter k = some { d with settled := .on, onCnt := d.onCnt + 1, pend := .idle } := by
  induction us generalizing s with
  | nil =>
    obtain ⟨t, hstep, ht⟩ := h.expire unsettled
    exact ⟨t, run_succ hstep 0, ht⟩
  | cons u us ih =>
    obtain ⟨v, hstep, hv⟩ := h.notify
    obtain ⟨t, hrun, ht⟩ := ih hv
    exact ⟨t, (run_succ hstep (us.length + 1)).trans hrun, ht⟩

/-- The event that arms an idle timer, at a time that the time base admits, leaves the notifications and the expiry ahead. -/
theorem exists_step_awaitsOn {start : Micros} {us : List Micros} (there : s.filter k = some d) (inRange : k.val < s.cfg.nDi)
    (idle : d.pend = .idle) (hdeadlines : s.NoDeadlinePasses) (hfresh : s.fresh = true → start = s.cfg.tReset)
    (hle : s.fresh = false → s.now ≤ start)
    (hinputs : s.inputs = eventAt (.evDiIn k true) start :: notifyThenExpire k us (start + holdUs d true))
    (htimes : TimesRise start (start :: (us ++ [start + holdUs d true]))) (early : ∀ u ∈ us, u < start + holdUs d true) :
    ∃ t, step s = .next t ∧ t.AwaitsOn k d (start + holdUs d true) us := by
  obtain ⟨-, hfits, hrest⟩ := htimes
  have notDue : s.touchesDue (eventAt (.evDiIn k true) start) = false := by
    rw [touchesDue_eq_timerDue (x := eventAt (.evDiIn k true) start) (touchedFilter_evDiIn k true) there, timerDue_of_idle idle]
  have admitted := refusalByTime_eq_none_of_noDeadlinePasses hinputs hfits hfresh hle hdeadlines notDue
  have hstep := step_of_encode (.evDiIn k true) hinputs admitted (decide_eq_true inRange) rfl
  rw [exec_evDiIn (s := s.latch _ _) there, debounceEvent_of_idle _ idle] at hstep
  refine ⟨_, hstep, setFilter_filter_same (s := s.latch _ _) _ there, inRange, ⟨rfl, rfl, ?_, ?_⟩, early⟩
  · refine forall_deb_setFilter (s := s.latch _ _) k ?_ fun e he L deadline hpend x hx => ?_
    · intro L deadline hpend x hx
      cases hpend
      exact now_le_of_mem_notifyThenExpire early hx
    · exact hdeadlines e he L deadline hpend x (by rw [hinputs]; exact List.mem_cons_of_mem _ hx)
  · rw [map_now_notifyThenExpire]
    exact hrest

end

/-- Settles O49: the first event arms the timer (`exists_step_awaitsOn`), and the run from there settles the filter once
(`State.AwaitsOn.run`). -/
theorem spuriousNotificationsSettleOnce : Obligations.SpuriousNotificationsSettleOnce := by
  intro k s d start spurious there inRange unsettled idle hdeadlines hfresh hle hinputs htimes early
  obtain ⟨u, hstep, awaits⟩ := exists_step_awaitsOn there inRange idle hdeadlines hfresh hle hinputs htimes early
  obtain ⟨t, hrun, ht⟩ := awaits.run spurious unsettled
  exact ⟨t, (run_succ hstep _).trans hrun, ht⟩

end Sys2Proof.Machine
end

section
/-! The reads of the snapshot and noise registers (44_snapshot.md R702 to R709): the paths of a read of DATA_TS as equations, what a read
leaves alone (R712, R713), and the clearing of a noise code. -/

namespace Sys2Proof.Machine

/-! ### Wiegand -/

section
variable {n : WIdx} {s t : State}

theorem exec_rdWDataTs_of_disabled (off : (s.w n).enabled = false) : exec (.rdWDataTs n) s = s.fail .nodev := if_pos off

theorem exec_rdWDataTs_of_busy (on : (s.w n).enabled = true) (busy : s.now - (s.w n).lastBitTs ≤ (s.w n).itvlMax) :
    exec (.rdWDataTs n) s = s.fail .busy := by
  simp [exec, execRdWDataTs, wiegandBusy, on, busy]

theorem exec_rdWDataTs_of_free (on : (s.w n).enabled = true) (free : ¬ s.now - (s.w n).lastBitTs ≤ (s.w n).itvlMax) :
    exec (.rdWDataTs n) s = (s.setW n (wiegandCapture (s.w n))).answer (s.w n).lastBitTs := by
  simp only [exec, execRdWDataTs, wiegandBusy, on, free, decide_false, Bool.true_eq_false, Bool.false_eq_true, if_false]

/-- A read of DATA_TS either fails, with no effect, or captures. -/
theorem exec_rdWDataTs_cases (n : WIdx) (s : State) :
    (∃ st, st ≠ .ok ∧ exec (.rdWDataTs n) s = s.fail st) ∨
      exec (.rdWDataTs n) s = (s.setW n (wiegandCapture (s.w n))).answer (s.w n).lastBitTs := by
  cases on : (s.w n).enabled with
  | false => exact .inl ⟨.nodev, by decide, exec_rdWDataTs_of_disabled on⟩
  | true =>
    by_cases busy : s.now - (s.w n).lastBitTs ≤ (s.w n).itvlMax
    · exact .inl ⟨.busy, by decide, exec_rdWDataTs_of_busy on busy⟩
    · exact .inr (exec_rdWDataTs_of_free on busy)

/-- An answer after an update of W[n], with its frame. -/
theorem exists_answer_value_setW (s : State) (n : WIdx) (r : Wiegand) (v : Word) :
    ∃ t, (s.setW n r).answer v = .next t ∧ t.w n = r ∧ t.resp = some ⟨.ok, v⟩ ∧ OnlyWiegand n s t :=
  ⟨(s.setW n r).respond .ok v, rfl, by simp, rfl, onlyWiegand_setW s n r _⟩

theorem exists_exec_rdWNoise (n : WIdx) (s : State) :
    ∃ t, exec (.rdWNoise n) s = .next t ∧ t.w n = { s.w n with noise := .none } ∧
      t.resp = some ⟨.ok, zext64 (s.w n).noise.code⟩ ∧ OnlyWiegand n s t :=
  exists_answer_value_setW s n _ _

/-- Nothing but the shadow of W[n] and the response may have changed (R713). -/
def OnlyWiegandShadow (n : WIdx) (s t : State) : Prop :=
  OnlyWiegand n s t ∧ ∃ ts bits word, t.w n = { s.w n with snapTs := ts, snapBits := bits, snapWord := word }

theorem onlyWiegandShadow_respond (n : WIdx) (s : State) (st : Status) (v : Word) : OnlyWiegandShadow n s (s.respond st v) :=
  ⟨onlyWiegand_respond n s st v, (s.w n).snapTs, (s.w n).snapBits, (s.w n).snapWord, rfl⟩

theorem rdWDataTs_onlyWiegandShadow (h : exec (.rdWDataTs n) s = .next t) : OnlyWiegandShadow n s t := by
  rcases exec_rdWDataTs_cases n s with ⟨st, -, hfail⟩ | hcapture
  · cases hfail.symm.trans h
    exact onlyWiegandShadow_respond n s st 0
  · cases hcapture.symm.trans h
    exact ⟨onlyWiegand_setW s n _ _, _, _, _, setW_w_same s n _⟩

end

/-- Settles O27: the three paths of R702. -/
theorem wiegandTimestampRead : Obligations.WiegandTimestampRead := by
  intro n s
  refine ⟨hrd_eq_rowAt (wIdx_lt_64 n), fun off => ?_, fun on busy => ?_, fun on free => ?_⟩
  · rw [exec_rdWDataTs_of_disabled off, fail_eq_next]
  · rw [exec_rdWDataTs_of_busy on busy, fail_eq_next]
  · rw [exec_rdWDataTs_of_free on free]
    exact exists_answer_value_setW s n (wiegandCapture (s.w n)) _

/-! ### Clock-data -/

section
variable {j : CdIdx} {s t : State}

theorem exec_rdCdDataTs_of_disabled (off : (s.cd j).enabled = false) : exec (.rdCdDataTs j) s = s.fail .nodev := if_pos off

theorem exec_rdCdDataTs_of_busy (on : (s.cd j).enabled = true) (busy : s.now - (s.cd j).lastClockTs ≤ (s.cd j).periodMax) :
    exec (.rdCdDataTs j) s = s.fail .busy := by
  simp [exec, execRdCdDataTs, clockDataBusy, on, busy]

theorem exec_rdCdDataTs_of_free (on : (s.cd j).enabled = true) (free : ¬ s.now - (s.cd j).lastClockTs ≤ (s.cd j).periodMax) :
    exec (.rdCdDataTs j) s = (s.setCd j (clockDataCapture (s.cd j))).answer (s.cd j).lastClockTs := by
  simp only [exec, execRdCdDataTs, clockDataBusy, on, free, decide_false, Bool.true_eq_false, Bool.false_eq_true, if_false]

/-- A read of DATA_TS either fails, with no effect, or captures. -/
theorem exec_rdCdDataTs_cases (j : CdIdx) (s : State) :
    (∃ st, st ≠ .ok ∧ exec (.rdCdDataTs j) s = s.fail st) ∨
      exec (.rdCdDataTs j) s = (s.setCd j (clockDataCapture (s.cd j))).answer (s.cd j).lastClockTs := by
  cases on : (s.cd j).enabled with
  | false => exact .inl ⟨.nodev, by decide, exec_rdCdDataTs_of_disabled on⟩
  | true =>
    by_cases busy : s.now - (s.cd j).lastClockTs ≤ (s.cd j).periodMax
    · exact .inl ⟨.busy, by decide, exec_rdCdDataTs_of_busy on busy⟩
    · exact .inr (exec_rdCdDataTs_of_free on busy)

/-- An answer after an update of CD[j], with its frame. -/
theorem exists_answer_value_setCd (s : State) (j : CdIdx) (r : ClockData) (v : Word) :
    ∃ t, (s.setCd j r).answer v = .next t ∧ t.cd j = r ∧ t.resp = some ⟨.ok, v⟩ ∧ OnlyClockData j s t :=
  ⟨(s.setCd j r).respond .ok v, rfl, by simp, rfl, onlyClockData_setCd s j r _⟩

theorem exists_exec_rdCdNoise (j : CdIdx) (s : State) :
    ∃ t, exec (.rdCdNoise j) s = .next t ∧ t.cd j = { s.cd j with noise := .none } ∧
      t.resp = some ⟨.ok, zext64 (s.cd j).noise.code⟩ ∧ OnlyClockData j s t :=
  exists_answer_value_setCd s j _ _

/-- Nothing but the shadow of CD[j] and the response may have changed (R713). -/
def OnlyClockDataShadow (j : CdIdx) (s t : State) : Prop :=
  OnlyClockData j s t ∧ ∃ ts bits word, t.cd j = { s.cd j with snapTs := ts, snapBits := bits, snapWord := word }

theorem onlyClockDataShadow_respond (j : CdIdx) (s : State) (st : Status) (v : Word) :
    OnlyClockDataShadow j s (s.respond st v) :=
  ⟨onlyClockData_respond j s st v, (s.cd j).snapTs, (s.cd j).snapBits, (s.cd j).snapWord, rfl⟩

theorem rdCdDataTs_onlyClockDataShadow (h : exec (.rdCdDataTs j) s = .next t) : OnlyClockDataShadow j s t := by
  rcases exec_rdCdDataTs_cases j s with ⟨st, -, hfail⟩ | hcapture
  · cases hfail.symm.trans h
    exact onlyClockDataShadow_respond j s st 0
  · cases hcapture.symm.trans h
    exact ⟨onlyClockData_setCd s j _ _, _, _, _, setCd_cd_same s j _⟩

end

/-- Settles O28: the three paths of R706. -/
theorem clockDataTimestampRead : Obligations.ClockDataTimestampRead := by
  intro j s
  refine ⟨hrd_eq_rowAt (cdIdx_lt_64 j), fun off => ?_, fun on busy => ?_, fun on free => ?_⟩
  · rw [exec_rdCdDataTs_of_disabled off, fail_eq_next]
  · rw [exec_rdCdDataTs_of_busy on busy, fail_eq_next]
  · rw [exec_rdCdDataTs_of_free on free]
    exact exists_answer_value_setCd s j (clockDataCapture (s.cd j)) _

/-! ### Both -/

/-- Settles O29: the second read finds the code that the first one left. -/
theorem noiseReadsClearTheCode : Obligations.NoiseReadsClearTheCode := by
  refine ⟨fun n s => ⟨hrd_eq_rowAt (wIdx_lt_64 n), ?_⟩, fun j s => ⟨hrd_eq_rowAt (cdIdx_lt_64 j), ?_⟩⟩
  · obtain ⟨t, hnext, hrecord, hresp, frame⟩ := exists_exec_rdWNoise n s
    obtain ⟨u, hnext', -, hresp', -⟩ := exists_exec_rdWNoise n t
    refine ⟨t, hnext, hrecord, hresp.trans ?_, frame, u, hnext', hresp'.trans ?_⟩
    · cases (s.w n).noise <;> rfl
    · rw [hrecord]; rfl
  · obtain ⟨t, hnext, hrecord, hresp, frame⟩ := exists_exec_rdCdNoise j s
    obtain ⟨u, hnext', -, hresp', -⟩ := exists_exec_rdCdNoise j t
    refine ⟨t, hnext, hrecord, hresp.trans ?_, frame, u, hnext', hresp'.trans ?_⟩
    · cases (s.cd j).noise <;> rfl
    · rw [hrecord]; rfl

/-- Settles O30: NODEV while the instance is disabled, BUSY while it is enabled. -/
theorem busyIsNeverTorn : Obligations.BusyIsNeverTorn := by
  refine ⟨fun n s busy => ?_, fun j s busy => ?_⟩
  · obtain ⟨-, hdisabled, hbusy, -⟩ := wiegandTimestampRead n s
    cases on : (s.w n).enabled with
    | false => exact .inr (hdisabled on)
    | true => exact .inl (hbusy on busy)
  · obtain ⟨-, hdisabled, hbusy, -⟩ := clockDataTimestampRead j s
    cases on : (s.cd j).enabled with
    | false => exact .inr (hdisabled on)
    | true => exact .inl (hbusy on busy)

/-- Settles O31: DATA_BITS and DATA_WORD only answer; DATA_TS also captures. -/
theorem readerNeverMutatesDecoderState : Obligations.ReaderNeverMutatesDecoderState := by
  refine ⟨fun n i s t hi h => ?_, fun j i s t hi h => ?_, fun n s t h => ?_, fun j s t h => ?_⟩
  · simp only [List.mem_cons, List.not_mem_nil, or_false] at hi
    rcases hi with rfl | rfl | rfl
    · exact rdWDataTs_onlyWiegandShadow h
    · cases h; exact onlyWiegandShadow_respond n s .ok _
    · cases h; exact onlyWiegandShadow_respond n s .ok _
  · simp only [List.mem_cons, List.not_mem_nil, or_false] at hi
    rcases hi with rfl | rfl | rfl
    · exact rdCdDataTs_onlyClockDataShadow h
    · cases h; exact onlyClockDataShadow_respond j s .ok _
    · cases h; exact onlyClockDataShadow_respond j s .ok _
  · obtain ⟨t', hnext, hrecord, -, frame⟩ := exists_exec_rdWNoise n s
    cases hnext.symm.trans h
    exact ⟨frame, _, hrecord⟩
  · obtain ⟨t', hnext, hrecord, -, frame⟩ := exists_exec_rdCdNoise j s
    cases hnext.symm.trans h
    exact ⟨frame, _, hrecord⟩

end Sys2Proof.Machine
end

section
/-! The shadow registers along a run (44_snapshot.md R710). An `Owner` names a decoder of either kind, so that what a step does to the
shadows is said once for both kinds: only an OK read of DATA_TS and a block reset change them. -/

namespace Sys2Proof.Machine

/-! ### The live and the captured values of a decoder -/

/-- What a capture copies: a timestamp, a bit count and a word. -/
structure Snap where
  ts : Micros
  bits : BitCount
  word : Word

/-- The timestamp, bit count and word that a decoder holds now. -/
def State.live (s : State) : Owner → Snap
  | .w n => ⟨(s.w n).lastBitTs, (s.w n).bitCount, (s.w n).word⟩
  | .cd j => ⟨(s.cd j).lastClockTs, (s.cd j).bitCount, (s.cd j).word⟩

/-- The shadow registers of a Wiegand record. -/
def Wiegand.shadow (r : Wiegand) : Snap := ⟨r.snapTs, r.snapBits, r.snapWord⟩

/-- The shadow registers of a clock-data record. -/
def ClockData.shadow (r : ClockData) : Snap := ⟨r.snapTs, r.snapBits, r.snapWord⟩

/-- The shadow registers of a decoder. -/
def State.shadow (s : State) : Owner → Snap
  | .w n => (s.w n).shadow
  | .cd j => (s.cd j).shadow

/-- The read of a decoder's DATA_TS. -/
def dataTsRead : Owner → Instr
  | .w n => .rdWDataTs n
  | .cd j => .rdCdDataTs j

theorem shadow_setW (s : State) (n : WIdx) (r : Wiegand) : (s.setW n r).shadow = Function.update s.shadow (.w n) r.shadow := by
  refine Function.eq_update_iff.mpr ⟨by simp [State.shadow], fun o ho => ?_⟩
  cases o with
  | w m => exact congrArg Wiegand.shadow (setW_w_ne s r (ne_of_apply_ne Owner.w ho))
  | cd j => exact congrArg ClockData.shadow (setW_cd s n r j)

theorem shadow_setCd (s : State) (j : CdIdx) (r : ClockData) :
    (s.setCd j r).shadow = Function.update s.shadow (.cd j) r.shadow := by
  refine Function.eq_update_iff.mpr ⟨by simp [State.shadow], fun o ho => ?_⟩
  cases o with
  | w n => exact congrArg Wiegand.shadow (setCd_w s j r n)
  | cd m => exact congrArg ClockData.shadow (setCd_cd_ne s r (ne_of_apply_ne Owner.cd ho))

/-! ### What an operation makes of the shadows -/

/-- What an operation makes of the shadow registers. -/
inductive ShadowEffect (s : State) : Instr → State → Prop where
  | same (i : Instr) (t : State) (kept : t.shadow = s.shadow) : ShadowEffect s i t
  | capture (o : Owner) (t : State) (ok : t.resp = some ⟨.ok, (s.live o).ts⟩)
      (captured : t.shadow = Function.update s.shadow o (s.live o)) : ShadowEffect s (dataTsRead o) t
  | reset (t : State) : ShadowEffect s .sysReset t

section
variable {s t : State} {i : Instr} {o : Owner}

theorem shadow_setW_of_kept {n : WIdx} {r : Wiegand} (kept : r.shadow = (s.w n).shadow) : (s.setW n r).shadow = s.shadow := by
  rw [shadow_setW, kept]
  exact Function.update_eq_self (Owner.w n) s.shadow

theorem shadow_setCd_of_kept {j : CdIdx} {r : ClockData} (kept : r.shadow = (s.cd j).shadow) : (s.setCd j r).shadow = s.shadow := by
  rw [shadow_setCd, kept]
  exact Function.update_eq_self (Owner.cd j) s.shadow

theorem wiegandEdge_shadow (L : Line) (level : Bool) (now : Micros) (r : Wiegand) :
    (wiegandEdge L level now r).shadow = r.shadow := by
  obtain ⟨-, -, -, -, -, hts, hbits, hword⟩ := wiegandEdge_settings L level now r
  simp only [Wiegand.shadow, hts, hbits, hword]

theorem clockEdge_shadow (data : Bool) (now : Micros) (r : ClockData) : (clockEdge data now r).shadow = r.shadow := by
  obtain ⟨-, -, -, hts, hbits, hword⟩ := clockEdge_settings data now r
  simp only [ClockData.shadow, hts, hbits, hword]

/-- A read of DATA_TS either fails, with no effect, or answers OK and captures: all three shadow registers at once. -/
theorem exec_dataTsRead_cases (o : Owner) (s : State) :
    (∃ st, st ≠ .ok ∧ exec (dataTsRead o) s = s.fail st) ∨
      ∃ t, exec (dataTsRead o) s = .next t ∧ t.resp = some ⟨.ok, (s.live o).ts⟩ ∧
        t.shadow = Function.update s.shadow o (s.live o) := by
  cases o with
  | w n => exact (exec_rdWDataTs_cases n s).imp_right fun hcapture => ⟨_, hcapture, rfl, shadow_setW s n _⟩
  | cd j => exact (exec_rdCdDataTs_cases j s).imp_right fun hcapture => ⟨_, hcapture, rfl, shadow_setCd s j _⟩

theorem dataTsRead_shadowEffect (h : exec (dataTsRead o) s = .next t) : ShadowEffect s (dataTsRead o) t := by
  rcases exec_dataTsRead_cases o s with ⟨st, -, hfail⟩ | ⟨t', hnext, hresp, hshadow⟩
  · cases hfail.symm.trans h
    exact .same _ _ rfl
  · cases hnext.symm.trans h
    exact .capture o t hresp hshadow

theorem wrWEnabled_shadow {n : WIdx} (h : execWrWEnabled n s = .next t) : t.shadow = s.shadow := by
  unfold execWrWEnabled at h
  split at h
  · unfold State.enableW at h
    split at h
    · cases h; rfl
    · split at h
      · cases h; rfl
      · cases h; exact shadow_setW_of_kept (s := s.claimPair _ _) rfl
  · unfold State.disableW at h
    split at h
    · cases h; exact shadow_setW_of_kept (s := s.releasePair _) rfl
    · cases h; rfl
  · cases h; rfl

theorem wrCdEnabled_shadow {j : CdIdx} (h : execWrCdEnabled j s = .next t) : t.shadow = s.shadow := by
  unfold execWrCdEnabled at h
  split at h
  · unfold State.enableCd at h
    split at h
    · cases h; rfl
    · split at h
      · cases h; rfl
      · cases h; exact shadow_setCd_of_kept (s := s.claimPair _ _) rfl
  · unfold State.disableCd at h
    split at h
    · cases h; exact shadow_setCd_of_kept (s := s.releasePair _) rfl
    · cases h; rfl
  · cases h; rfl

/-- A host access to a filter keeps the shadows if it does so where the filter exists. -/
theorem withFilter_shadow {k : DiIdx} {f : Debounce → Host.Outcome State Fault Refusal} (h : withFilter s k f = .next t)
    (kept : ∀ d, f d = .next t → t.shadow = s.shadow) : t.shadow = s.shadow := by
  rcases withFilter_next h with ⟨-, rfl⟩ | ⟨d, -, h⟩
  · rfl
  · exact kept d h

theorem filterRead_shadow {k : DiIdx} {f : Debounce → Word} (h : (withFilter s k fun d => s.answer (f d)) = .next t) :
    t.shadow = s.shadow :=
  withFilter_shadow h fun d h => by cases h; rfl

theorem wrDiOnMs_shadow {k : DiIdx} (h : execWrDiOnMs k s = .next t) : t.shadow = s.shadow :=
  withFilter_shadow h fun d h => by split at h <;> cases h <;> rfl

theorem wrDiOffMs_shadow {k : DiIdx} (h : execWrDiOffMs k s = .next t) : t.shadow = s.shadow :=
  withFilter_shadow h fun d h => by split at h <;> cases h <;> rfl

theorem evDiIn_shadow {k : DiIdx} {level : Bool} (h : execEvDiIn k level s = .next t) : t.shadow = s.shadow := by
  obtain ⟨d, -, h⟩ := withEventFilter_next h
  cases h
  rfl

theorem sysExpire_shadow {k : DiIdx} {sample : Bool} (h : execSysExpire k sample s = .next t) : t.shadow = s.shadow := by
  obtain ⟨d, -, h⟩ := withEventFilter_next h
  split at h
  · cases h
  · split at h
    · cases h; rfl
    · cases h

/-- Every operation but a read of DATA_TS and a block reset keeps every shadow. -/
theorem exec_shadowEffect (h : exec i s = .next t) : ShadowEffect s i t := by
  cases i with
  | rdWDataTs n => exact dataTsRead_shadowEffect (o := .w n) h
  | rdCdDataTs j => exact dataTsRead_shadowEffect (o := .cd j) h
  | sysReset => exact .reset t
  | rdWEnabled _ | rdWDataBits _ | rdWDataWord _ | rdWItvlMin _ | rdWItvlMax _ | rdWWidthMin _ | rdWWidthMax _
  | rdCdEnabled _ | rdCdDataBits _ | rdCdDataWord _ | rdCdPeriodMin _ | rdCdPeriodMax _ => cases h; exact .same _ _ rfl
  | wrWItvlMin _ | wrWItvlMax _ | wrWWidthMin _ | wrWWidthMax _ | rdWNoise _ =>
    cases h; exact .same _ _ (shadow_setW_of_kept rfl)
  | wrCdPeriodMin _ | wrCdPeriodMax _ | rdCdNoise _ => cases h; exact .same _ _ (shadow_setCd_of_kept rfl)
  | evWD0 _ _ | evWD1 _ _ => cases h; exact .same _ _ (shadow_setW_of_kept (wiegandEdge_shadow _ _ _ _))
  | evCdClk _ _ => cases h; exact .same _ _ (shadow_setCd_of_kept (clockEdge_shadow _ _ _))
  | wrWEnabled _ => exact .same _ _ (wrWEnabled_shadow h)
  | wrCdEnabled _ => exact .same _ _ (wrCdEnabled_shadow h)
  | rdDiDeb _ | rdDiOnMs _ | rdDiOffMs _ | rdDiOnCnt _ | rdDiOffCnt _ => exact .same _ _ (filterRead_shadow h)
  | wrDiOnMs _ => exact .same _ _ (wrDiOnMs_shadow h)
  | wrDiOffMs _ => exact .same _ _ (wrDiOffMs_shadow h)
  | evDiIn _ _ => exact .same _ _ (evDiIn_shadow h)
  | sysExpire _ _ => exact .same _ _ (sysExpire_shadow h)

/-! ### Steps and runs -/

/-- A step that names an operation runs it, in the state that holds its operands. -/
theorem exec_of_nextOp (hstep : step s = .next t) (hop : s.nextOp = some i) : ∃ x rest, exec i (s.latch x rest) = .next t := by
  rcases step_next hstep with ⟨hinputs, -⟩ | ⟨x, rest, hinputs, -, ⟨i', hdecode, hexec⟩ | ⟨hdecode, -⟩⟩
  · simp [State.nextOp, hinputs] at hop
  · cases (nextOp_eq_some hinputs hdecode).symm.trans hop
    exact ⟨x, rest, hexec⟩
  · simp [State.nextOp, hinputs, hdecode] at hop

/-- A step keeps every shadow, or runs an operation that has one of the effects on them. -/
theorem step_shadowEffect (h : step s = .next t) :
    t.shadow = s.shadow ∨ ∃ x rest i, s.nextOp = some i ∧ ShadowEffect (s.latch x rest) i t := by
  rcases step_next h with ⟨-, rfl⟩ | ⟨x, rest, hinputs, -, ⟨i, hdecode, hexec⟩ | ⟨-, rfl⟩⟩
  · exact .inl rfl
  · exact .inr ⟨x, rest, i, nextOp_eq_some hinputs hdecode, exec_shadowEffect hexec⟩
  · exact .inl rfl

/-- The step that answers a read of DATA_TS with OK: the value is the live timestamp, and the shadow is all that was live. -/
theorem step_dataTsRead_ok {T : Word} (hop : s.nextOp = some (dataTsRead o)) (hstep : step s = .next t)
    (hresp : t.resp = some ⟨.ok, T⟩) : T = (s.live o).ts ∧ t.shadow o = s.live o := by
  obtain ⟨x, rest, hexec⟩ := exec_of_nextOp hstep hop
  rcases exec_dataTsRead_cases o (s.latch x rest) with ⟨st, hst, hfail⟩ | ⟨t', hnext, hresp', hshadow⟩
  · cases hfail.symm.trans hexec
    cases hresp
    exact absurd rfl hst
  · cases hnext.symm.trans hexec
    cases hresp'.symm.trans hresp
    exact ⟨rfl, hshadow ▸ Function.update_self o _ _⟩

/-- One step that neither is an OK read of this decoder's DATA_TS nor a block reset: `KeepsWiegandShadow` and `KeepsClockDataShadow` in
one. -/
def KeepsShadow (o : Owner) (s t : State) : Prop :=
  s.nextOp ≠ some .sysReset ∧ ¬ (s.nextOp = some (dataTsRead o) ∧ t.answeredOk)

theorem keepsShadow_w (n : WIdx) : KeepsShadow (.w n) = KeepsWiegandShadow n := rfl

theorem keepsShadow_cd (j : CdIdx) : KeepsShadow (.cd j) = KeepsClockDataShadow j := rfl

theorem step_shadow_eq (hstep : step s = .next t) (keeps : KeepsShadow o s t) : t.shadow o = s.shadow o := by
  obtain ⟨hreset, hread⟩ := keeps
  rcases step_shadowEffect hstep with hsame | ⟨x, rest, i, hop, effect⟩
  · rw [hsame]
  · cases effect with
    | same i t kept => rw [kept]; rfl
    | capture p t ok captured =>
      have hne : o ≠ p := by rintro rfl; exact hread ⟨hop, _, ok⟩
      rw [captured, Function.update_of_ne hne]
      rfl
    | reset => exact absurd hop hreset

/-- R710: between an OK read of DATA_TS and the next one, or a block reset, the shadow stays. -/
theorem RunWith.shadow_eq (run : RunWith (KeepsShadow o) s t) : t.shadow o = s.shadow o := by
  induction run with
  | refl s => rfl
  | next hstep keeps _ ih => exact ih.trans (step_shadow_eq hstep keeps)

end

/-- Settles O32: the read captures what is live, the run keeps the shadow, and DATA_BITS and DATA_WORD answer from the shadow. -/
theorem snapshotIsNeverTorn : Obligations.SnapshotIsNeverTorn := by
  refine ⟨fun n s s' t T hop hstep hresp run => ?_, fun j s s' t T hop hstep hresp run => ?_⟩
  · obtain ⟨hT, hcaptured⟩ := step_dataTsRead_ok (o := .w n) hop hstep hresp
    have hshadow : t.shadow (.w n) = s.live (.w n) := (keepsShadow_w n ▸ run).shadow_eq.trans hcaptured
    obtain ⟨-, -, -, -, -, ⟨-, hbits⟩, ⟨-, hword⟩⟩ := wiegandRegisterReads n t
    have hsnapBits : (t.w n).snapBits = (s.w n).bitCount := congrArg Snap.bits hshadow
    have hsnapWord : (t.w n).snapWord = (s.w n).word := congrArg Snap.word hshadow
    exact ⟨hT, hsnapBits ▸ hbits, hsnapWord ▸ hword⟩
  · obtain ⟨hT, hcaptured⟩ := step_dataTsRead_ok (o := .cd j) hop hstep hresp
    have hshadow : t.shadow (.cd j) = s.live (.cd j) := (keepsShadow_cd j ▸ run).shadow_eq.trans hcaptured
    obtain ⟨-, -, -, ⟨-, hbits⟩, ⟨-, hword⟩⟩ := clockDataRegisterReads j t
    have hsnapBits : (t.cd j).snapBits = (s.cd j).bitCount := congrArg Snap.bits hshadow
    have hsnapWord : (t.cd j).snapWord = (s.cd j).word := congrArg Snap.word hshadow
    exact ⟨hT, hsnapBits ▸ hbits, hsnapWord ▸ hword⟩

end Sys2Proof.Machine
end

section
/-! What an operation of one instance is a function of (60_exceptions.md R817). A `Region` is what such an operation may read and write
beside its operands; each operation is one reaction to them, by which it stays inside its region, changes nothing when it fails (R802), and
does the same wherever the region and the operands are the same. -/

namespace Sys2Proof.Machine

/-! ### Reactions -/

/-- What an operation reads outside the records and the claim table: `SameOperands` as data. -/
structure Operands where
  cfg : Config
  now : Micros
  wdata : Word
  extClaimed : List LineId

def State.operands (s : State) : Operands := ⟨s.cfg, s.now, s.wdata, s.extClaimed⟩

theorem SameOperands.operands_eq {s t : State} (h : SameOperands s t) : t.operands = s.operands := by
  obtain ⟨hcfg, hnow, hwdata, hext⟩ := h
  simp only [State.operands, hcfg, hnow, hwdata, hext]

/-- What an operation makes of its region of the state: a failed access, a read, a write, or an event or expiry. -/
inductive Reaction (ρ : Type) where
  | fail (st : Status)
  | answer (v : Word)
  | store (r : ρ) (v : Word)
  | silent (r : ρ)

/-- A region of the state, with the frame of what a step that writes only this region leaves unchanged. -/
structure Region (ρ : Type) where
  get : State → ρ
  put : State → ρ → State
  frame : State → State → Prop
  get_withResp (s : State) (o : Option Response) : get { s with resp := o } = get s
  get_put {s s' : State} (r : ρ) (same : get s' = get s) : get (put s' r) = get (put s r)
  frame_withResp (s : State) (o : Option Response) : frame s { s with resp := o }
  frame_put (s : State) (r : ρ) (o : Option Response) : frame s { put s r with resp := o }

section
variable {ρ : Type} {p : Region ρ} {i : Instr} {s t : State}

/-- The state after a reaction. -/
def Region.react (p : Region ρ) (s : State) : Reaction ρ → State
  | .fail st => s.respond st 0
  | .answer v => s.respond .ok v
  | .store r v => (p.put s r).respond .ok v
  | .silent r => (p.put s r).silent

/-- Where the operation completes, its reaction is a function of the operands and the region. -/
def Region.Acts (p : Region ρ) (i : Instr) : Prop :=
  ∃ f : Operands → ρ → Reaction ρ, ∀ s t, exec i s = .next t → t = p.react s (f s.operands (p.get s))

/-- The operation completes in every state, with a reaction that is a function of the operands and the region. -/
def Region.Runs (p : Region ρ) (i : Instr) : Prop :=
  ∃ f : Operands → ρ → Reaction ρ, ∀ s, exec i s = .next (p.react s (f s.operands (p.get s)))

theorem Region.Runs.acts (h : p.Runs i) : p.Acts i := by
  obtain ⟨f, hf⟩ := h
  exact ⟨f, fun s t hexec => by cases (hf s).symm.trans hexec; rfl⟩

theorem Region.frame_react (p : Region ρ) (s : State) (x : Reaction ρ) : p.frame s (p.react s x) := by
  cases x with
  | fail st => exact p.frame_withResp s _
  | answer v => exact p.frame_withResp s _
  | store r v => exact p.frame_put s r _
  | silent r => exact p.frame_put s r _

theorem Region.get_react {s' : State} (same : p.get s' = p.get s) (x : Reaction ρ) : p.get (p.react s' x) = p.get (p.react s x) := by
  cases x with
  | fail st => exact (p.get_withResp s' _).trans (same.trans (p.get_withResp s _).symm)
  | answer v => exact (p.get_withResp s' _).trans (same.trans (p.get_withResp s _).symm)
  | store r v => exact (p.get_withResp _ _).trans ((p.get_put r same).trans (p.get_withResp _ _).symm)
  | silent r => exact (p.get_withResp _ _).trans ((p.get_put r same).trans (p.get_withResp _ _).symm)

theorem Region.resp_react (p : Region ρ) (s s' : State) (x : Reaction ρ) : (p.react s' x).resp = (p.react s x).resp := by
  cases x <;> rfl

/-- Only a failed access is answered with a status other than OK. -/
theorem Region.react_of_not_ok {x : Reaction ρ} {a : Response} (hresp : (p.react s x).resp = some a) (hst : a.status ≠ .ok) :
    a.value = 0 ∧ p.react s x = { s with resp := some a } := by
  cases x with
  | fail st =>
    cases hresp
    cases st <;> exact ⟨rfl, rfl⟩
  | answer v => cases hresp; exact absurd rfl hst
  | store r v => cases hresp; exact absurd rfl hst
  | silent r => cases hresp

theorem Region.Acts.frame (h : p.Acts i) (hexec : exec i s = .next t) : p.frame s t := by
  obtain ⟨f, hf⟩ := h
  rw [hf s t hexec]
  exact p.frame_react s _

/-- Nothing outside the region and the operands is read. -/
theorem Region.Acts.agree (h : p.Acts i) (hexec : exec i s = .next t) {s' t' : State} (operands : SameOperands s s')
    (same : p.get s' = p.get s) (hexec' : exec i s' = .next t') : p.get t' = p.get t ∧ t'.resp = t.resp := by
  obtain ⟨f, hf⟩ := h
  rw [hf s t hexec, hf s' t' hexec', operands.operands_eq, same]
  exact ⟨Region.get_react same _, p.resp_react s s' _⟩

end

/-! ### The regions -/

abbrev ClaimTable := List (LineId × Owner)

@[simp] theorem setCd_self (s : State) (j : CdIdx) : s.setCd j (s.cd j) = s := by
  match j with
  | 0 => rfl
  | 1 => rfl

/-- The record W[n]. -/
def wiegandRegion (n : WIdx) : Region Wiegand where
  get s := s.w n
  put s r := s.setW n r
  frame := OnlyWiegand n
  get_withResp _ _ := rfl
  get_put r _ := by rw [setW_w_same, setW_w_same]
  frame_withResp s o := by simpa only [setW_self] using onlyWiegand_setW s n (s.w n) o
  frame_put s r o := onlyWiegand_setW s n r o

/-- The record CD[j]. -/
def clockDataRegion (j : CdIdx) : Region ClockData where
  get s := s.cd j
  put s r := s.setCd j r
  frame := OnlyClockData j
  get_withResp _ _ := rfl
  get_put r _ := by rw [setCd_cd_same, setCd_cd_same]
  frame_withResp s o := by simpa only [setCd_self] using onlyClockData_setCd s j (s.cd j) o
  frame_put s r o := onlyClockData_setCd s j r o

/-- The record W[n] and the claim table. -/
def wiegandClaimsRegion (n : WIdx) : Region (Wiegand × ClaimTable) where
  get s := (s.w n, s.claim)
  put s r := State.setW { s with claim := r.2 } n r.1
  frame := OnlyWiegandAndClaims n
  get_withResp _ _ := rfl
  get_put r _ := by simp
  frame_withResp s o := ((wiegandRegion n).frame_withResp s o).andClaims
  frame_put s r o := (onlyWiegand_setW { s with claim := r.2 } n r.1 o).andClaims

/-- The record CD[j] and the claim table. -/
def clockDataClaimsRegion (j : CdIdx) : Region (ClockData × ClaimTable) where
  get s := (s.cd j, s.claim)
  put s r := State.setCd { s with claim := r.2 } j r.1
  frame := OnlyClockDataAndClaims j
  get_withResp _ _ := rfl
  get_put r _ := by simp
  frame_withResp s o := ((clockDataRegion j).frame_withResp s o).andClaims
  frame_put s r o := (onlyClockData_setCd { s with claim := r.2 } j r.1 o).andClaims

theorem onlyDebounce_withResp (k : DiIdx) (s : State) (o : Option Response) : OnlyDebounce k s { s with resp := o } :=
  ⟨fun _ => rfl, fun _ => rfl, rfl, fun _ _ => rfl, rfl, rfl, rfl, rfl, rfl, rfl, rfl⟩

/-- A record is stored where there is one. -/
theorem setFilter_filter (s : State) (k : DiIdx) (e : Debounce) : (s.setFilter k e).filter k = (s.filter k).map fun _ => e :=
  List.getElem?_set_self'

/-- The record DEB[k], if there is one. -/
def debounceRegion (k : DiIdx) : Region (Option Debounce) where
  get s := s.filter k
  put s r := r.elim s (s.setFilter k)
  frame := OnlyDebounce k
  get_withResp _ _ := rfl
  get_put {s s'} r same := by
    cases r with
    | none => exact same
    | some e => simp only [Option.elim, setFilter_filter, same]
  frame_withResp s o := onlyDebounce_withResp k s o
  frame_put s r o := by
    cases r with
    | none => exact onlyDebounce_withResp k s o
    | some e => exact onlyDebounce_setFilter s k e o

/-! ### Decoders: timestamp reads and writes of ENABLED -/

/-- The reaction of a read of DATA_TS (44_snapshot.md R702, R706). -/
def timestampReaction {ρ : Type} (enabled busy : Bool) (captured : ρ) (ts : Micros) : Reaction ρ :=
  if enabled = false then .fail .nodev else if busy then .fail .busy else .store captured ts

theorem rdWDataTs_runs (n : WIdx) : (wiegandRegion n).Runs (.rdWDataTs n) := by
  refine ⟨fun x r => timestampReaction r.enabled (wiegandBusy x.now r) (wiegandCapture r) r.lastBitTs, fun s => ?_⟩
  show execRdWDataTs n s = .next ((wiegandRegion n).react s (timestampReaction (s.w n).enabled (wiegandBusy s.now (s.w n)) _ _))
  unfold execRdWDataTs timestampReaction
  split
  · rfl
  · split <;> rfl

theorem rdCdDataTs_runs (j : CdIdx) : (clockDataRegion j).Runs (.rdCdDataTs j) := by
  refine ⟨fun x r => timestampReaction r.enabled (clockDataBusy x.now r) (clockDataCapture r) r.lastClockTs, fun s => ?_⟩
  show execRdCdDataTs j s = .next ((clockDataRegion j).react s (timestampReaction (s.cd j).enabled (clockDataBusy s.now (s.cd j)) _ _))
  unfold execRdCdDataTs timestampReaction
  split
  · rfl
  · split <;> rfl

/-- `State.pairHeld` as a function of the claim table and the lines claimed outside CORE. -/
def pairHeldIn (claims : ClaimTable) (ext : List LineId) (p : LinePair) : Bool :=
  ((claimAt claims p.first).isSome || ext.contains p.first) || ((claimAt claims p.second).isSome || ext.contains p.second)

theorem pairHeld_eq_pairHeldIn (s : State) (p : LinePair) : s.pairHeld p = pairHeldIn s.claim s.extClaimed p := rfl

/-- The reaction of a write of ENABLED on the record `up` or `down` that it leaves (41_wiegand.md R408 to R410; 42_clock_data.md R503,
R504, R510). -/
def enabledReaction {ρ : Type} (operand : Option Bool) (enabled held : Bool) (p : LinePair) (o : Owner) (claims : ClaimTable)
    (up down : ρ) : Reaction (ρ × ClaimTable) :=
  match operand with
  | some true =>
    if enabled then .answer 0
    else if held then .fail .busy
    else .store (up, takeClaim (takeClaim claims p.first o) p.second o) 0
  | some false => if enabled then .store (down, dropClaim (dropClaim claims p.first) p.second) 0 else .answer 0
  | none => .fail .inval

theorem wrWEnabled_runs (n : WIdx) : (wiegandClaimsRegion n).Runs (.wrWEnabled n) := by
  refine ⟨fun x r => enabledReaction (enabledOperand x.wdata) r.1.enabled (pairHeldIn r.2 x.extClaimed (wLines x.cfg n))
    (wLines x.cfg n) (.w n) r.2 (wiegandEnabled r.1) { r.1 with enabled := false }, fun s => ?_⟩
  show execWrWEnabled n s = .next ((wiegandClaimsRegion n).react s (enabledReaction (enabledOperand s.wdata) (s.w n).enabled
    (s.pairHeld (wLines s.cfg n)) _ _ _ _ _))
  unfold execWrWEnabled
  match enabledOperand s.wdata with
  | some true =>
    dsimp only [State.enableW, enabledReaction]
    split
    · rfl
    · split <;> rfl
  | some false =>
    dsimp only [State.disableW, enabledReaction]
    split <;> rfl
  | none => rfl

theorem wrCdEnabled_runs (j : CdIdx) : (clockDataClaimsRegion j).Runs (.wrCdEnabled j) := by
  refine ⟨fun x r => enabledReaction (enabledOperand x.wdata) r.1.enabled (pairHeldIn r.2 x.extClaimed (cdLines x.cfg j))
    (cdLines x.cfg j) (.cd j) r.2 (clockDataEnabled r.1) { r.1 with enabled := false }, fun s => ?_⟩
  show execWrCdEnabled j s = .next ((clockDataClaimsRegion j).react s (enabledReaction (enabledOperand s.wdata) (s.cd j).enabled
    (s.pairHeld (cdLines s.cfg j)) _ _ _ _ _))
  unfold execWrCdEnabled
  match enabledOperand s.wdata with
  | some true =>
    dsimp only [State.enableCd, enabledReaction]
    split
    · rfl
    · split <;> rfl
  | some false =>
    dsimp only [State.disableCd, enabledReaction]
    split <;> rfl
  | none => rfl

/-! ### Filters -/

section
variable {i : Instr} {k : DiIdx}

/-- A host access to a filter reacts to the record, or is DECERR. -/
theorem debounceRegion_runs (g : Operands → Debounce → Reaction (Option Debounce))
    (h : ∀ s, exec i s = withFilter s k fun d => .next ((debounceRegion k).react s (g s.operands d))) : (debounceRegion k).Runs i := by
  refine ⟨fun x r => r.elim (.fail .decErr) (g x), fun s => (h s).trans ?_⟩
  show withFilter s k _ = .next ((debounceRegion k).react s ((s.filter k).elim (.fail .decErr) (g s.operands)))
  unfold withFilter
  split
  · next there => rw [there]; rfl
  · next missing => rw [missing]; rfl

/-- The reaction of a write of a hold time (43_debounce.md R612, R614): `config` is the record with the new hold time. -/
def holdTimeReaction (v : Word) (config : Millis → Debounce) : Reaction (Option Debounce) :=
  match holdOperand v with
  | some ms => .store (some (debounceReconfig (config ms))) 0
  | none => .fail .inval

theorem wrDiOnMs_runs (k : DiIdx) : (debounceRegion k).Runs (.wrDiOnMs k) := by
  refine debounceRegion_runs (fun x d => holdTimeReaction x.wdata fun ms => { d with holdOnMs := ms }) fun s =>
    congrArg (withFilter s k) (funext fun d => ?_)
  show _ = Host.Outcome.next ((debounceRegion k).react s (holdTimeReaction s.wdata _))
  unfold holdTimeReaction
  match holdOperand s.wdata with
  | some ms => rfl
  | none => rfl

theorem wrDiOffMs_runs (k : DiIdx) : (debounceRegion k).Runs (.wrDiOffMs k) := by
  refine debounceRegion_runs (fun x d => holdTimeReaction x.wdata fun ms => { d with holdOffMs := ms }) fun s =>
    congrArg (withFilter s k) (funext fun d => ?_)
  show _ = Host.Outcome.next ((debounceRegion k).react s (holdTimeReaction s.wdata _))
  unfold holdTimeReaction
  match holdOperand s.wdata with
  | some ms => rfl
  | none => rfl

/-- An event or expiry of a filter that only updates the record. -/
theorem debounceRegion_acts (g : Operands → Debounce → Debounce)
    (h : ∀ s t, exec i s = .next t → ∃ d, s.filter k = some d ∧ t = (s.setFilter k (g s.operands d)).silent) :
    (debounceRegion k).Acts i := by
  refine ⟨fun x r => .silent (r.map (g x)), fun s t hexec => ?_⟩
  obtain ⟨d, there, rfl⟩ := h s t hexec
  show _ = (debounceRegion k).react s (.silent ((s.filter k).map (g s.operands)))
  rw [there]
  rfl

theorem evDiIn_acts (k : DiIdx) (level : Bool) : (debounceRegion k).Acts (.evDiIn k level) :=
  debounceRegion_acts (fun x d => debounceEvent level x.now d) fun s t hexec => by
    obtain ⟨d, there, h⟩ := withEventFilter_next hexec
    cases h
    exact ⟨d, there, rfl⟩

/-- The record after an expiry of its timer, whichever level it is armed for. -/
def debounceExpired (sample : Bool) (d : Debounce) : Debounce :=
  match d.pend with
  | .idle => d
  | .armed level _ => debounceExpire level sample d

theorem sysExpire_acts (k : DiIdx) (sample : Bool) : (debounceRegion k).Acts (.sysExpire k sample) :=
  debounceRegion_acts (fun _ d => debounceExpired sample d) fun s t hexec => by
    obtain ⟨d, there, h⟩ := withEventFilter_next hexec
    split at h
    · cases h
    · next level deadline pending =>
      split at h
      · cases h
        exact ⟨d, there, by simp only [debounceExpired, pending]⟩
      · cases h

end

/-! ### Every operation -/

section
variable {i : Instr}

theorem wiegandRegion_runs {n : WIdx} (htarget : target i = .w n) (hne : i ≠ .wrWEnabled n) : (wiegandRegion n).Runs i := by
  cases i with
  | wrWEnabled m => cases htarget; exact absurd rfl hne
  | rdWEnabled m => cases htarget; exact ⟨fun _ r => .answer (zext64 (BitVec.ofBool r.enabled)), fun _ => rfl⟩
  | rdWDataTs m => cases htarget; exact rdWDataTs_runs n
  | rdWDataBits m => cases htarget; exact ⟨fun _ r => .answer (zext64 r.snapBits), fun _ => rfl⟩
  | rdWDataWord m => cases htarget; exact ⟨fun _ r => .answer r.snapWord, fun _ => rfl⟩
  | rdWNoise m => cases htarget; exact ⟨fun _ r => .store { r with noise := .none } (zext64 r.noise.code), fun _ => rfl⟩
  | rdWItvlMin m => cases htarget; exact ⟨fun _ r => .answer r.itvlMin, fun _ => rfl⟩
  | wrWItvlMin m => cases htarget; exact ⟨fun x r => .store { r with itvlMin := x.wdata } 0, fun _ => rfl⟩
  | rdWItvlMax m => cases htarget; exact ⟨fun _ r => .answer r.itvlMax, fun _ => rfl⟩
  | wrWItvlMax m => cases htarget; exact ⟨fun x r => .store { r with itvlMax := x.wdata } 0, fun _ => rfl⟩
  | rdWWidthMin m => cases htarget; exact ⟨fun _ r => .answer r.widthMin, fun _ => rfl⟩
  | wrWWidthMin m => cases htarget; exact ⟨fun x r => .store { r with widthMin := x.wdata } 0, fun _ => rfl⟩
  | rdWWidthMax m => cases htarget; exact ⟨fun _ r => .answer r.widthMax, fun _ => rfl⟩
  | wrWWidthMax m => cases htarget; exact ⟨fun x r => .store { r with widthMax := x.wdata } 0, fun _ => rfl⟩
  | evWD0 m level => cases htarget; exact ⟨fun x r => .silent (wiegandEdge .d0 level x.now r), fun _ => rfl⟩
  | evWD1 m level => cases htarget; exact ⟨fun x r => .silent (wiegandEdge .d1 level x.now r), fun _ => rfl⟩
  | _ => cases htarget

theorem clockDataRegion_runs {j : CdIdx} (htarget : target i = .cd j) (hne : i ≠ .wrCdEnabled j) : (clockDataRegion j).Runs i := by
  cases i with
  | wrCdEnabled m => cases htarget; exact absurd rfl hne
  | rdCdEnabled m => cases htarget; exact ⟨fun _ r => .answer (zext64 (BitVec.ofBool r.enabled)), fun _ => rfl⟩
  | rdCdDataTs m => cases htarget; exact rdCdDataTs_runs j
  | rdCdDataBits m => cases htarget; exact ⟨fun _ r => .answer (zext64 r.snapBits), fun _ => rfl⟩
  | rdCdDataWord m => cases htarget; exact ⟨fun _ r => .answer r.snapWord, fun _ => rfl⟩
  | rdCdNoise m => cases htarget; exact ⟨fun _ r => .store { r with noise := .none } (zext64 r.noise.code), fun _ => rfl⟩
  | rdCdPeriodMin m => cases htarget; exact ⟨fun _ r => .answer r.periodMin, fun _ => rfl⟩
  | wrCdPeriodMin m => cases htarget; exact ⟨fun x r => .store { r with periodMin := x.wdata } 0, fun _ => rfl⟩
  | rdCdPeriodMax m => cases htarget; exact ⟨fun _ r => .answer r.periodMax, fun _ => rfl⟩
  | wrCdPeriodMax m => cases htarget; exact ⟨fun x r => .store { r with periodMax := x.wdata } 0, fun _ => rfl⟩
  | evCdClk m data => cases htarget; exact ⟨fun x r => .silent (clockEdge data x.now r), fun _ => rfl⟩
  | _ => cases htarget

/-- Every operation of a filter but an event or expiry, which the filter must exist for, completes in every state. -/
theorem debounceRegion_runs_or {k : DiIdx} (htarget : target i = .di k) :
    (debounceRegion k).Runs i ∨ (∃ level, i = .evDiIn k level) ∨ ∃ sample, i = .sysExpire k sample := by
  cases i with
  | rdDiDeb m =>
    cases htarget; exact .inl (debounceRegion_runs (fun _ d => .answer (zext64 d.settled.code)) fun _ => rfl)
  | rdDiOnMs m => cases htarget; exact .inl (debounceRegion_runs (fun _ d => .answer (zext64 d.holdOnMs)) fun _ => rfl)
  | rdDiOffMs m => cases htarget; exact .inl (debounceRegion_runs (fun _ d => .answer (zext64 d.holdOffMs)) fun _ => rfl)
  | rdDiOnCnt m => cases htarget; exact .inl (debounceRegion_runs (fun _ d => .answer d.onCnt) fun _ => rfl)
  | rdDiOffCnt m => cases htarget; exact .inl (debounceRegion_runs (fun _ d => .answer d.offCnt) fun _ => rfl)
  | wrDiOnMs m => cases htarget; exact .inl (wrDiOnMs_runs k)
  | wrDiOffMs m => cases htarget; exact .inl (wrDiOffMs_runs k)
  | evDiIn m level => cases htarget; exact .inr (.inl ⟨level, rfl⟩)
  | sysExpire m sample => cases htarget; exact .inr (.inr ⟨sample, rfl⟩)
  | _ => cases htarget

theorem debounceRegion_acts_of_target {k : DiIdx} (htarget : target i = .di k) : (debounceRegion k).Acts i := by
  rcases debounceRegion_runs_or htarget with h | ⟨level, rfl⟩ | ⟨sample, rfl⟩
  · exact h.acts
  · exact evDiIn_acts k level
  · exact sysExpire_acts k sample

/-- Every operation but a block reset, an event or an expiry of a filter completes in every state, by a reaction of its region. -/
theorem exists_region_runs (i : Instr) :
    (∃ (ρ : Type) (p : Region ρ), p.Runs i) ∨ (∃ k level, i = .evDiIn k level) ∨ (∃ k sample, i = .sysExpire k sample) ∨
      i = .sysReset := by
  cases htarget : target i with
  | w n =>
    by_cases hen : i = .wrWEnabled n
    · exact .inl ⟨_, _, hen ▸ wrWEnabled_runs n⟩
    · exact .inl ⟨_, _, wiegandRegion_runs htarget hen⟩
  | cd j =>
    by_cases hen : i = .wrCdEnabled j
    · exact .inl ⟨_, _, hen ▸ wrCdEnabled_runs j⟩
    · exact .inl ⟨_, _, clockDataRegion_runs htarget hen⟩
  | di k =>
    rcases debounceRegion_runs_or htarget with h | ⟨level, h⟩ | ⟨sample, h⟩
    · exact .inl ⟨_, _, h⟩
    · exact .inr (.inl ⟨k, level, h⟩)
    · exact .inr (.inr (.inl ⟨k, sample, h⟩))
  | block =>
    have hreset : i = .sysReset := by
      cases i with
      | sysReset => rfl
      | _ => cases htarget
    exact .inr (.inr (.inr hreset))

end

/-- Settles O55: the operations of an instance react on its record, a write of ENABLED on the claim table too. -/
theorem instancesAreIndependent : Obligations.InstancesAreIndependent := by
  refine ⟨fun i n s t htarget hexec => ?_, fun i j s t htarget hexec => ?_, fun i k s t htarget hexec => ?_⟩
  · by_cases hen : i = .wrWEnabled n
    · have hacts : (wiegandClaimsRegion n).Acts i := hen ▸ (wrWEnabled_runs n).acts
      refine ⟨hacts.frame hexec, fun hne => absurd hen hne, fun s' t' operands hrecord hclaim hexec' => ?_⟩
      obtain ⟨hregion, hresp⟩ := hacts.agree hexec operands (Prod.ext hrecord (hclaim hen)) hexec'
      exact ⟨congrArg Prod.fst hregion, hresp, fun _ => congrArg Prod.snd hregion⟩
    · have hacts : (wiegandRegion n).Acts i := (wiegandRegion_runs htarget hen).acts
      have hframe : OnlyWiegand n s t := hacts.frame hexec
      refine ⟨hframe.andClaims, fun _ => hframe.claim_eq, fun s' t' operands hrecord _ hexec' => ?_⟩
      obtain ⟨hregion, hresp⟩ := hacts.agree hexec operands hrecord hexec'
      exact ⟨hregion, hresp, fun h => absurd h hen⟩
  · by_cases hen : i = .wrCdEnabled j
    · have hacts : (clockDataClaimsRegion j).Acts i := hen ▸ (wrCdEnabled_runs j).acts
      refine ⟨hacts.frame hexec, fun hne => absurd hen hne, fun s' t' operands hrecord hclaim hexec' => ?_⟩
      obtain ⟨hregion, hresp⟩ := hacts.agree hexec operands (Prod.ext hrecord (hclaim hen)) hexec'
      exact ⟨congrArg Prod.fst hregion, hresp, fun _ => congrArg Prod.snd hregion⟩
    · have hacts : (clockDataRegion j).Acts i := (clockDataRegion_runs htarget hen).acts
      have hframe : OnlyClockData j s t := hacts.frame hexec
      refine ⟨hframe.andClaims, fun _ => hframe.claim_eq, fun s' t' operands hrecord _ hexec' => ?_⟩
      obtain ⟨hregion, hresp⟩ := hacts.agree hexec operands hrecord hexec'
      exact ⟨hregion, hresp, fun h => absurd h hen⟩
  · have hacts := debounceRegion_acts_of_target htarget
    exact ⟨hacts.frame hexec, fun s' t' operands hrecord hexec' => hacts.agree hexec operands hrecord hexec'⟩

end Sys2Proof.Machine
end

section
/-! The admission of a step by its time (60_exceptions.md R814; 43_debounce.md R602 (b), (c)) in the terms of the spec, and the time base
through a step. -/

namespace Sys2Proof.Machine

/-! ### When the time of a step is admitted -/

theorem timeFits_iff {t : Micros} : timeFits t = true ↔ t.toNat + 2 ^ 42 < 2 ^ 64 := by
  rw [timeFits, decide_eq_true_eq]
  omega

theorem pastDeadline_eq_false_iff {now : Micros} {d : Debounce} :
    pastDeadline now d = false ↔ ∀ L deadline, d.pend = .armed L deadline → now ≤ deadline :=
  ⟨fun h _ _ hpend => not_pastDeadline h hpend, pastDeadline_eq_false⟩

theorem timerDue_eq_false_iff {now : Micros} {d : Debounce} :
    timerDue now d = false ↔ ∀ L deadline, d.pend = .armed L deadline → ¬ deadline ≤ now := by
  unfold timerDue
  split
  · next hidle => simp [hidle]
  · next L deadline hpend => simp [hpend]

/-- `touchedFilter` reads off the fields what `TouchesFilter` says of the whole descriptor. -/
theorem touchedFilter_eq_some_iff_touchesFilter {d : Descriptor} {k : DiIdx} : touchedFilter d = some k ↔ TouchesFilter k d := by
  have hd := d.isLt
  have hk : k.val < 64 := k.isLt
  have hreserved : reservedOf d = 0 ↔ (reservedOf d).toNat = 0 := BitVec.toNat_inj.symm
  rw [touchedFilter_eq_some_iff, hreserved, toNat_reservedOf, toNat_unitOf, toNat_instOf, toNat_kindOf, toNat_lowOf, TouchesFilter]
  constructor
  · rintro ⟨hr, hu, hi, h⟩
    exact ⟨d.toNat % 2 ^ 4, by omega⟩
  · rintro ⟨low, h⟩
    omega

theorem touchesDue_eq_false_iff {s : State} {x : StepInput} :
    s.touchesDue x = false ↔
      ∀ k d, s.filter k = some d → ∀ L deadline, d.pend = .armed L deadline → deadline ≤ x.now → ¬ TouchesFilter k x.desc := by
  constructor
  · intro h k d there L deadline hpend due touches
    rw [touchesDue_eq_timerDue (touchedFilter_eq_some_iff_touchesFilter.mpr touches) there] at h
    exact timerDue_eq_false_iff.mp h L deadline hpend due
  · intro h
    unfold State.touchesDue
    split
    · next k touched =>
      split
      · next d there =>
        exact timerDue_eq_false_iff.mpr fun L deadline hpend due =>
          h k d there L deadline hpend due (touchedFilter_eq_some_iff_touchesFilter.mp touched)
      · rfl
    · rfl

theorem refusalByTime_eq_none_iff_timeAdmits (s : State) (x : StepInput) : s.refusalByTime x = none ↔ s.TimeAdmits x := by
  simp only [refusalByTime_eq_none_iff, State.TimeAdmits, timeFits_iff, pastDeadline_eq_false_iff, touchesDue_eq_false_iff]

/-! ### The time base -/

/-- A step that is taken is admitted by its time. -/
theorem timeAdmits_of_step {s t : State} {x : StepInput} {rest : List StepInput} (hinputs : s.inputs = x :: rest)
    (hstep : step s = .next t) : s.TimeAdmits x := by
  refine (refusalByTime_eq_none_iff_timeAdmits s x).mp ?_
  by_contra refused
  obtain ⟨r, hr⟩ := exists_refused_of_time hinputs refused
  cases hr.symm.trans hstep

/-- Settles O10: `TimeAdmits` rules out what the first three clauses describe; the second is the first test of admission. -/
theorem timeBaseIsAdmittedOrRefused : Obligations.TimeBaseIsAdmittedOrRefused := by
  intro s x rest hinputs
  refine ⟨fun hfresh hlt => ?_, fun hlarge => ?_, fun hfresh hne => ?_, fun t hstep => ?_⟩
  · refine exists_refused_of_time hinputs fun admitted => ?_
    obtain ⟨-, -, hle, -⟩ := (refusalByTime_eq_none_iff_timeAdmits s x).mp admitted
    exact BitVec.not_lt.mpr (hle hfresh) hlt
  · have hfits : timeFits x.now = false := Bool.eq_false_iff.mpr fun h => by
      have := timeFits_iff.mp h
      omega
    have hrefused : s.refusalByTime x = some .timeBaseExhausted := if_pos hfits
    simp only [step, hinputs, hrefused]
  · refine exists_refused_of_time hinputs fun admitted => ?_
    obtain ⟨-, hreset, -⟩ := (refusalByTime_eq_none_iff_timeAdmits s x).mp admitted
    exact hne (hreset hfresh)
  · obtain ⟨hfits, hreset, hle, -⟩ := timeAdmits_of_step hinputs hstep
    exact ⟨hfits, hle, hreset⟩

/-- No effect of an operation but a block reset, which begins a new run, changes `now`. -/
theorem Effect.now_eq_or_fresh {s t : State} (e : Effect s t) : t.now = s.now ∨ t.fresh = true := by
  cases e with
  | respond st v => exact .inl rfl
  | wiegand n r o _ => exact .inl (setW_now s n r)
  | clockData j r o _ => exact .inl (setCd_now s j r)
  | debounce k d e o _ _ => exact .inl rfl
  | enableW n _ _ => exact .inl (by simp)
  | disableW n _ => exact .inl (by simp)
  | enableCd j _ _ => exact .inl (by simp)
  | disableCd j _ => exact .inl (by simp)
  | reset => exact .inr rfl

/-- Settles O16: the `now` of an admitted step is not below that of the step before, and its effect keeps it. -/
theorem timeNeverDecreases : Obligations.TimeNeverDecreases := by
  intro s t hfresh hfresh' hstep
  rcases step_effect hstep with ⟨-, rfl⟩ | ⟨x, rest, hinputs, -, e⟩
  · exact BitVec.le_refl _
  · obtain ⟨-, -, hle, -⟩ := timeAdmits_of_step hinputs hstep
    have hnow : t.now = x.now := e.now_eq_or_fresh.resolve_right (by simp [hfresh'])
    exact hnow ▸ hle hfresh

end Sys2Proof.Machine
end

section
/-! Refused steps and failed accesses (60_exceptions.md R800, R802; 30_encoding.md R312, R313): what each operation can be refused for,
and that an access answered with a status other than OK has no effect. -/

namespace Sys2Proof.Machine

/-! ### Refusals -/

section
variable {s : State} {i : Instr}

theorem Region.Runs.exists_next {ρ : Type} {p : Region ρ} (h : p.Runs i) (s : State) : ∃ t, exec i s = .next t := by
  obtain ⟨f, hf⟩ := h
  exact ⟨_, hf s⟩

/-- With one record for each filter, a filter below N_DI has its record. -/
theorem exists_filter {k : DiIdx} (hlen : s.deb.length = s.cfg.nDi) (hk : k.val < s.cfg.nDi) : ∃ d, s.filter k = some d :=
  ⟨_, List.getElem?_eq_getElem (hlen ▸ hk)⟩

/-- Every operation that exists completes, but for an expiry. -/
theorem exec_completes (hlen : s.deb.length = s.cfg.nDi) (hwf : i.wf s.cfg.nDi = true)
    (hne : ∀ k sample, i ≠ .sysExpire k sample) : ∃ t, exec i s = .next t := by
  rcases exists_region_runs i with ⟨ρ, p, hruns⟩ | ⟨k, level, rfl⟩ | ⟨k, sample, rfl⟩ | rfl
  · exact hruns.exists_next s
  · obtain ⟨d, there⟩ := exists_filter hlen (of_decide_eq_true hwf)
    exact ⟨_, exec_evDiIn there level⟩
  · exact absurd rfl (hne k sample)
  · exact ⟨_, rfl⟩

/-- An operation that exists is refused exactly when it is an expiry that is not due (43_debounce.md R602 (d)). -/
theorem exec_eq_refused_iff (hlen : s.deb.length = s.cfg.nDi) (hwf : i.wf s.cfg.nDi = true) (r : Refusal) :
    exec i s = .refused r ↔
      r = .expireNotDue ∧
        ∃ k sample, i = .sysExpire k sample ∧ ∀ d, s.filter k = some d → ∀ L, d.pend ≠ .armed L s.now := by
  constructor
  · intro hrefused
    by_cases hexpire : ∃ k sample, i = .sysExpire k sample
    · obtain ⟨k, sample, rfl⟩ := hexpire
      obtain ⟨d, there⟩ := exists_filter hlen (of_decide_eq_true hwf)
      by_cases due : ∃ L, d.pend = .armed L s.now
      · obtain ⟨L, due⟩ := due
        cases (exec_sysExpire there due sample).symm.trans hrefused
      · have notDue : ∀ L, d.pend ≠ .armed L s.now := not_exists.mp due
        cases (exec_sysExpire_of_not_due there notDue sample).symm.trans hrefused
        exact ⟨rfl, k, sample, rfl, fun e there' => Option.some.inj (there.symm.trans there') ▸ notDue⟩
    · obtain ⟨t, hnext⟩ := exec_completes hlen hwf fun k sample h => hexpire ⟨k, sample, h⟩
      cases hnext.symm.trans hrefused
  · rintro ⟨rfl, k, sample, rfl, notDue⟩
    obtain ⟨d, there⟩ := exists_filter hlen (of_decide_eq_true hwf)
    exact exec_sysExpire_of_not_due there (notDue d there) sample

/-- A decoded operation exists. -/
theorem wf_of_decode {nDi : Nat} {d : Descriptor} (h : decode nDi d = .ok i) : i.wf nDi = true :=
  (decodeThenEncodeIsIdentity nDi d i h).1

/-- Why the next step to come is refused: its time, a descriptor that is no operation, or an expiry that is not due. -/
theorem step_eq_refused_iff {x : StepInput} {rest : List StepInput} (hinputs : s.inputs = x :: rest)
    (hlen : s.deb.length = s.cfg.nDi) (r : Refusal) :
    step s = .refused r ↔
      s.refusalByTime x = some r ∨
        (s.refusalByTime x = none ∧ decode s.cfg.nDi x.desc = .error .noSuchOperation ∧ r = .notAnOperation) ∨
        (s.refusalByTime x = none ∧ r = .expireNotDue ∧
          ∃ k sample, decode s.cfg.nDi x.desc = .ok (.sysExpire k sample) ∧
            ∀ d, s.filter k = some d → ∀ L, d.pend ≠ .armed L x.now) := by
  cases htime : s.refusalByTime x with
  | some r' => simp [step, hinputs, htime]
  | none =>
    cases hdecode : decode s.cfg.nDi x.desc with
    | ok i =>
      have hstep : step s = exec i (s.latch x rest) := step_of_decodeStep_ok hinputs htime hdecode
      rw [hstep, exec_eq_refused_iff (s := s.latch x rest) hlen (wf_of_decode hdecode)]
      simp
    | error e =>
      have hstep : step s = (s.latch x rest).rejected e := by simp only [step, hinputs, htime, State.decodeStep, hdecode]
      rw [hstep]
      cases e with
      | decErr => simp [State.rejected, State.fail]
      | noSuchOperation => simp [State.rejected, eq_comm]

end

/-- Settles O12: `TimeAdmits` is the admission by time, and with no step to come there is nothing to refuse. -/
theorem stepIsRefusedExactlyWhenNotAdmitted : Obligations.StepIsRefusedExactlyWhenNotAdmitted := by
  refine ⟨refusalByTime_eq_none_iff_timeAdmits, fun s hlen r => ?_⟩
  cases hinputs : s.inputs with
  | nil => simp [step, hinputs]
  | cons x rest =>
    refine (step_eq_refused_iff hinputs hlen r).trans ⟨fun h => ⟨x, rest, rfl, h⟩, ?_⟩
    rintro ⟨y, rest', heq, h⟩
    cases heq
    exact h

/-! ### Failed accesses -/

theorem Region.Acts.no_effect_of_not_ok {ρ : Type} {p : Region ρ} {i : Instr} {s t : State} {a : Response} (h : p.Acts i)
    (hexec : exec i s = .next t) (hresp : t.resp = some a) (hst : a.status ≠ .ok) :
    a.value = 0 ∧ t = { s with resp := some a } := by
  obtain ⟨f, hf⟩ := h
  cases hf s t hexec
  exact Region.react_of_not_ok hresp hst

/-- R802 for an operation. -/
theorem exec_no_effect_of_not_ok {i : Instr} {s t : State} {a : Response} (hexec : exec i s = .next t) (hresp : t.resp = some a)
    (hst : a.status ≠ .ok) : a.value = 0 ∧ t = { s with resp := some a } := by
  rcases exists_region_runs i with ⟨ρ, p, hruns⟩ | ⟨k, level, rfl⟩ | ⟨k, sample, rfl⟩ | rfl
  · exact hruns.acts.no_effect_of_not_ok hexec hresp hst
  · exact (evDiIn_acts k level).no_effect_of_not_ok hexec hresp hst
  · exact (sysExpire_acts k sample).no_effect_of_not_ok hexec hresp hst
  · cases hexec
    cases hresp

/-- Settles O14: the step runs an operation, or answers DECERR, on the state with its operands. -/
theorem nonOkAccessChangesNothing : Obligations.NonOkAccessChangesNothing := by
  intro s t x rest a hinputs hstep hresp hst
  rcases step_next hstep with ⟨hnil, -⟩ | ⟨y, rest', hcons, -, h⟩
  · cases hnil.symm.trans hinputs
  · cases hcons.symm.trans hinputs
    rcases h with ⟨i, -, hexec⟩ | ⟨-, rfl⟩
    · exact exec_no_effect_of_not_ok hexec hresp hst
    · cases hresp
      exact ⟨rfl, rfl⟩

end Sys2Proof.Machine
end

section
/-! The routing of a notification under the claim rule (60_exceptions.md R805; 10_state.md R132). `route_eq_some` says every event that a
notification can give; R132 makes the owner of a claimed line an enabled instance. -/

namespace Sys2Proof.Machine

/-- The line of a pair that a Wiegand instance has as D0 or D1 (00_scope.md R8). -/
def lineIn (p : LinePair) : Line → LineId
  | .d0 => p.first
  | .d1 => p.second

section
variable {s : State} {inputs : List LineId} {e : Notification} {i : Instr}

theorem route_of_wiegand_first {n : WIdx} (owned : s.claimOf e.line = some (.w n)) (hline : e.line = (wLines s.cfg n).first) :
    s.route inputs e = some (.evWD0 n e.level) := (State.route_wiegand owned inputs).trans (if_pos hline)

theorem route_of_wiegand_second {n : WIdx} (owned : s.claimOf e.line = some (.w n))
    (hdistinct : (wLines s.cfg n).first ≠ (wLines s.cfg n).second) (hline : e.line = (wLines s.cfg n).second) :
    s.route inputs e = some (.evWD1 n e.level) :=
  (State.route_wiegand owned inputs).trans ((if_neg fun hfirst => hdistinct (hfirst.symm.trans hline)).trans (if_pos hline))

theorem route_of_clock_rising {j : CdIdx} (owned : s.claimOf e.line = some (.cd j)) (hline : e.line = (cdLines s.cfg j).first)
    (hrising : e.rising = true) : s.route inputs e = some (.evCdClk j e.data) :=
  (State.route_clockData owned inputs).trans (if_pos ⟨hline, hrising⟩)

theorem route_of_clockData_other {j : CdIdx} (owned : s.claimOf e.line = some (.cd j))
    (other : ¬ (e.line = (cdLines s.cfg j).first ∧ e.rising = true)) : s.route inputs e = none :=
  (State.route_clockData owned inputs).trans (if_neg other)

theorem route_of_feeds {k : DiIdx} (unclaimed : s.claimOf e.line = none) (feeds : inputs[k.val]? = some e.line)
    (first : ∀ m, m < k.val → inputs[m]? ≠ some e.line) : s.route inputs e = some (.evDiIn k e.level) :=
  (State.route_unclaimed unclaimed inputs).trans (routeDebounce_eq_some_iff.mpr ⟨k, ⟨feeds, first⟩, rfl⟩)

theorem route_of_feeds_none (unclaimed : s.claimOf e.line = none) (feedsNone : e.line ∉ inputs) : s.route inputs e = none := by
  rw [State.route_unclaimed unclaimed, Option.eq_none_iff_forall_ne_some]
  intro i hi
  obtain ⟨k, ⟨feeds, -⟩, -⟩ := routeDebounce_eq_some_iff.mp hi
  exact feedsNone (List.mem_of_getElem? feeds)

/-- Every event that a notification gives, by the owner of its line. -/
theorem route_eq_some (h : s.route inputs e = some i) :
    (∃ n L, s.claimOf e.line = some (.w n) ∧ e.line = lineIn (wLines s.cfg n) L ∧ i = evW n L e.level) ∨
    (∃ j, s.claimOf e.line = some (.cd j) ∧ e.line = (cdLines s.cfg j).first ∧ e.rising = true ∧ i = .evCdClk j e.data) ∨
    (∃ k : DiIdx, s.claimOf e.line = none ∧ inputs[k.val]? = some e.line ∧ i = .evDiIn k e.level) := by
  match owner : s.claimOf e.line with
  | some (.w n) =>
    rw [State.route_wiegand owner] at h
    rcases routeWiegand_eq_some h with ⟨hline, rfl⟩ | ⟨hline, -, rfl⟩
    · exact .inl ⟨n, .d0, rfl, hline, rfl⟩
    · exact .inl ⟨n, .d1, rfl, hline, rfl⟩
  | some (.cd j) =>
    rw [State.route_clockData owner] at h
    obtain ⟨hline, hrising, rfl⟩ := routeClockData_eq_some h
    exact .inr (.inl ⟨j, rfl, hline, hrising, rfl⟩)
  | none =>
    rw [State.route_unclaimed owner] at h
    obtain ⟨k, ⟨feeds, -⟩, rfl⟩ := routeDebounce_eq_some_iff.mp h
    exact .inr (.inr ⟨k, rfl, feeds, rfl⟩)

theorem State.ClaimInv.ownerEnabled (h : s.ClaimInv) {ln : LineId} {o : Owner} (owned : s.claimOf ln = some o) :
    s.ownerEnabled o = true := ((h.2 ln o).mp owned).1

theorem evW_inj {n m : WIdx} {L M : Line} {l l' : Bool} (h : evW n L l = evW m M l') : n = m ∧ L = M ∧ l = l' := by
  cases L <;> cases M <;> cases h <;> exact ⟨rfl, rfl, rfl⟩

theorem evW_ne_evCdClk (n : WIdx) (L : Line) (l : Bool) (j : CdIdx) (d : Bool) : evW n L l ≠ .evCdClk j d := by
  cases L <;> exact Instr.noConfusion

theorem evW_ne_evDiIn (n : WIdx) (L : Line) (l : Bool) (k : DiIdx) (l' : Bool) : evW n L l ≠ .evDiIn k l' := by
  cases L <;> exact Instr.noConfusion

theorem route_eq_evW (h : s.ClaimInv) {n : WIdx} {L : Line} {l : Bool} (hroute : s.route inputs e = some (evW n L l)) :
    (s.w n).enabled = true ∧ l = e.level ∧ e.line = lineIn (wLines s.cfg n) L := by
  rcases route_eq_some hroute with ⟨m, M, owned, hline, heq⟩ | ⟨j, -, -, -, heq⟩ | ⟨k, -, -, heq⟩
  · obtain ⟨rfl, rfl, rfl⟩ := evW_inj heq
    exact ⟨h.ownerEnabled owned, rfl, hline⟩
  · exact absurd heq (evW_ne_evCdClk n L l j e.data)
  · exact absurd heq (evW_ne_evDiIn n L l k e.level)

theorem route_eq_evCdClk (h : s.ClaimInv) {j : CdIdx} {d : Bool} (hroute : s.route inputs e = some (.evCdClk j d)) :
    (s.cd j).enabled = true ∧ e.rising = true ∧ d = e.data ∧ e.line = (cdLines s.cfg j).first := by
  rcases route_eq_some hroute with ⟨n, L, -, -, heq⟩ | ⟨m, owned, hline, hrising, heq⟩ | ⟨k, -, -, heq⟩
  · exact absurd heq.symm (evW_ne_evCdClk n L e.level j d)
  · cases heq
    exact ⟨h.ownerEnabled owned, hrising, rfl, hline⟩
  · cases heq

theorem route_eq_evDiIn {k : DiIdx} {l : Bool} (hroute : s.route inputs e = some (.evDiIn k l)) :
    s.claimOf e.line = none ∧ l = e.level ∧ inputs[k.val]? = some e.line := by
  rcases route_eq_some hroute with ⟨n, L, -, -, heq⟩ | ⟨j, -, -, -, heq⟩ | ⟨m, unclaimed, feeds, heq⟩
  · exact absurd heq.symm (evW_ne_evDiIn n L e.level k l)
  · cases heq
  · cases heq
    exact ⟨unclaimed, rfl, feeds⟩

end

/-- Settles O56: the delivery clauses are the paths of `State.route`, and their converses are read off `route_eq_some`. -/
theorem routingFollowsTheClaimTable : Obligations.RoutingFollowsTheClaimTable := by
  intro s inputs e h
  refine ⟨fun n owned hdistinct => ⟨route_of_wiegand_first owned, route_of_wiegand_second owned hdistinct⟩,
    fun j owned => ⟨route_of_clock_rising owned, route_of_clockData_other owned⟩, fun k => route_of_feeds, route_of_feeds_none,
    fun n L l hroute => ?_, fun j d => route_eq_evCdClk h, fun k l => route_eq_evDiIn, fun i hroute => ?_⟩
  · obtain ⟨hon, hlevel, hline⟩ := route_eq_evW h hroute
    exact ⟨hon, hlevel, by cases L <;> exact hline⟩
  · rcases route_eq_some hroute with ⟨n, L, -, -, rfl⟩ | ⟨j, -, -, -, rfl⟩ | ⟨k, -, -, rfl⟩
    · exact .inl ⟨n, L, _, rfl⟩
    · exact .inr (.inl ⟨j, _, rfl⟩)
    · exact .inr (.inr ⟨k, _, rfl⟩)

end Sys2Proof.Machine
end

section
/-! Reset and the busy window (70_reset_and_hazards.md): what power-on and a block reset leave (R900, R901), and the BUSY answers that an
accepted pulse opens (R906). -/

namespace Sys2Proof.Machine

/-! ### Power-on and block reset -/

/-- Settles O51: the records are those of the reset columns (`resetFor_w`, `resetFor_cd`), and the claim table lists no line. -/
theorem powerOnState : Obligations.PowerOnState := fun c => ⟨resetFor_w c, resetFor_cd c, rfl, fun _ => rfl, rfl⟩

/-- The first step after a reset is refused off T_RESET (60_exceptions.md R814; log 6). -/
theorem exists_refused_of_fresh_off_tReset {s : State} {x : StepInput} {rest : List StepInput} (hinputs : s.inputs = x :: rest)
    (hfresh : s.fresh = true) (off : x.now ≠ s.cfg.tReset) : ∃ r, step s = .refused r := by
  refine exists_refused_of_time hinputs fun admitted => ?_
  obtain ⟨-, atReset, -⟩ := (refusalByTime_eq_none_iff s x).mp admitted
  exact off (atReset hfresh)

/-- Settles O50: a block reset is the state after power-on under the same configuration (`powerOnState`), with the steps to come kept. -/
theorem blockResetRestoresEveryRecord : Obligations.BlockResetRestoresEveryRecord := by
  intro s
  obtain ⟨wiegand, clockData, debounce, unclaimed, hcfg⟩ := powerOnState s.cfg
  exact ⟨{ State.resetFor s.cfg with inputs := s.inputs }, rfl, wiegand, clockData, debounce, unclaimed, hcfg, rfl, rfl,
    fun x rest hinputs off => exists_refused_of_fresh_off_tReset hinputs rfl off⟩

/-! ### The busy window -/

/-- Of the paths of a falling edge only the one with no pulse open makes its line the active one, and that path stamps `now` (R406). -/
theorem wiegandEdge_lastBitTs_of_opened {L : Line} {now : Micros} {r : Wiegand} (on : r.enabled = true)
    (closed : r.activeLine ≠ some L) (opened : (wiegandEdge L false now r).activeLine = some L) :
    (wiegandEdge L false now r).lastBitTs = now := by
  cases high : r.wasLow L with
  | true =>
    rw [wiegandEdge_of_repeated (level := false) on high.symm] at opened
    exact absurd opened closed
  | false =>
    rw [wiegandEdge_fall on high] at opened ⊢
    generalize r.setWasLow L true = q at opened ⊢
    by_cases early : q.bitCount ≠ 0 ∧ now - q.lastBitTs < q.itvlMin
    · rw [fallingEdge_of_early early] at opened
      cases opened
    · by_cases idle : q.activeLine = none
      · rw [fallingEdge_of_idle early idle]
      · rw [fallingEdge_of_concurrent early idle] at opened
        cases opened

/-- Settles O40: the edge stamps `now` and keeps the enable and `itvlMax`, so at `later` the read meets the BUSY test of R702. -/
theorem acceptedPulseOpensTheBusyWindow : Obligations.AcceptedPulseOpensTheBusyWindow := by
  intro n L s t later hexec closed opened on _ within
  obtain ⟨u, hnext, hrecord, -, -⟩ := exists_exec_evW n L false s
  cases hexec.symm.trans hnext
  obtain ⟨henabled, -, hitvlMax, -⟩ := wiegandEdge_settings L false s.now (s.w n)
  rw [← hrecord] at henabled hitvlMax
  have stamped : (t.w n).lastBitTs = s.now := by
    rw [hrecord] at opened ⊢
    exact wiegandEdge_lastBitTs_of_opened on closed opened
  have busy : later - (t.w n).lastBitTs ≤ (t.w n).itvlMax := by rwa [stamped, hitvlMax]
  exact (exec_rdWDataTs_of_busy (s := { t with now := later }) (henabled.trans on) busy).trans (fail_eq_next _ _)

end Sys2Proof.Machine
end

section
/-! The descriptors of vector V2.1 (95_test_vectors.md). A word that names an operation is that operation's encoding, which decodes to it
(`encodeThenDecodeIsIdentity`); a word that names none matches no row of R310, and its KIND chooses the rejection (R312, R313). -/

namespace Sys2Proof

theorem decode_eq_ok_of_encode_eq {nDi : Nat} {i : Instr} {d : Descriptor} (hwf : i.wf nDi = true) (hd : encode i = d) :
    decode nDi d = .ok i :=
  hd ▸ encodeThenDecodeIsIdentity nDi i hwf

theorem decode_eq_decErr_of_matches_no_row {nDi : Nat} {d : Descriptor} (hrow : matchesRow nDi d = false)
    (hhost : (kindOf d).toNat < 2) : decode nDi d = .error .decErr :=
  (decode_eq_error_of_matches_no_row hrow).trans (congrArg _ (rejectOf_eq_decErr hhost))

theorem decode_eq_noSuchOperation_of_matches_no_row {nDi : Nat} {d : Descriptor} (hrow : matchesRow nDi d = false)
    (hevent : 2 ≤ (kindOf d).toNat) : decode nDi d = .error .noSuchOperation :=
  (decode_eq_error_of_matches_no_row hrow).trans (congrArg _ (rejectOf_eq_noSuchOperation hevent))

/-- Settles O5: seven of the ten words are encodings (`decode_eq_ok_of_encode_eq`), and the other three match no row. -/
theorem vectorDescriptorsDecode : Obligations.VectorDescriptorsDecode := by
  refine ⟨?rdDataTs, ?wrPeriodMax, ?reservedReg, ?reservedUnit, ?evD1, ?evClk, ?evIn, ?illegalEvent, ?expire, ?reset⟩
  case reservedReg | reservedUnit => exact decode_eq_decErr_of_matches_no_row (by decide) (by decide)
  case illegalEvent => exact decode_eq_noSuchOperation_of_matches_no_row (by decide) (by decide)
  all_goals exact decode_eq_ok_of_encode_eq rfl rfl

end Sys2Proof
end
